-- ==== Sys2Proof/Word.lean ====
section
/-! DEFINITION. The word types of the block: the 36-bit op word, the 32-bit immediate, a frame byte, and the two line levels. -/

namespace Sys2Proof

/-- An op word (30 R77): `uop[35:33]`, `level[32]`, `imm[31:0]`. -/
abbrev OpWord := BitVec 36

/-- A `uint32` of microseconds (00 R6, R8). -/
abbrev U32 := BitVec 32

/-- A byte of the frame (10 R27). -/
abbrev Byte := BitVec 8

/-- The level of the line during one tick (00 R8): `low` is 0, `high` is 1. -/
inductive Level where
  | low
  | high
  deriving DecidableEq, Repr

end Sys2Proof
end

