-- ==== Sys2Proof/Config.lean ====
section
/-! DEFINITION. The construction parameters of the block (00 R6), fixed before the first tick and never changed, and the one free value of the model. -/

namespace Sys2Proof.Config

/-- `FAMILY` (00 R5, R6, 30 R87): only `Tenths16` is specified; any other is refused by name at Convert. -/
inductive Family where
  | tenths16
  | other (id : Nat)
  deriving DecidableEq, Repr

/-- `RELEASE_KIND` (00 R6, 92 D2): only `OpenDrain` is specified. -/
inductive ReleaseKind where
  | openDrain
  deriving DecidableEq, Repr

/-- The construction parameters (00 R6). `pin` only names the pad, and is absent where none is named; no rule reads it (log 4). -/
structure Params where
  tStartUs       : U32
  tReleaseUs     : U32
  toAckLowUs     : U32
  toAckHighUs    : U32
  toBitLowUs     : U32
  toBitHighUs    : U32
  bitThresholdUs : U32
  family         : Family
  releaseKind    : ReleaseKind
  pin            : Option Nat
  deriving DecidableEq, Repr

/-- The defaults of 00 R6: the source's literals, which are unaudited. `PIN` has no default there and no value may be assumed
(91 N18): DESIGN CHOICE, no pad is named (log 4). -/
def Params.default : Params :=
  { tStartUs := 20000#32, tReleaseUs := 30#32, toAckLowUs := 85#32, toAckHighUs := 85#32,
    toBitLowUs := 56#32, toBitHighUs := 75#32, bitThresholdUs := 40#32,
    family := .tenths16, releaseKind := .openDrain, pin := none }

/-- `N_BITS` = 8 × `N_BYTES`: fixed by the source, not a free parameter (00 R6). -/
def nBits : Nat := 40

/-- The free value of 10 R24 and 92 D5: the `duration_us` of a timed-out measurement, which the source does not give.
The argument is State's draw counter; nothing can evaluate the constant (log 8). -/
opaque freeDuration : Nat → U32

end Sys2Proof.Config
end

