-- ==== Sys2Proof/Syntax.lean ====
section
/-! DEFINITION. The operations of the block (30 R78), one constructor per row of spec/opcode_table.json, and the fields of a raw op word (30 R77). -/

namespace Sys2Proof

/-- The seven operations (30 R78, R85). -/
inductive Instr where
  /-- `drive_low()` (40 R100). -/
  | driveLow
  /-- `release_high()` (40 R101). -/
  | releaseHigh
  /-- `switch_to_input()` (40 R102). -/
  | switchToInput
  /-- `read_level() -> bool` (40 R103). -/
  | readLevel
  /-- `measure_while(level, timeout_us) -> PulseMeasurement` (41 R110). -/
  | measureWhile (level : Level) (timeoutUs : U32)
  /-- The spec's own DELAY(n_us) (41 R114). -/
  | delay (nUs : U32)
  /-- `read() -> Result<SensorReading, DecodeError>` (42 R120). -/
  | read
  deriving DecidableEq, Repr

/-- The three fields of an op word (30 R77), as they stand: any value, reserved or not. -/
structure OpFields where
  uop   : BitVec 3
  level : BitVec 1
  imm   : U32
  deriving DecidableEq, Repr

end Sys2Proof
end

