-- ==== Sys2Proof/WellFormed.lean ====
section
/-! DEFINITION. What a legal op word is (30 R77, R81) and what the constraints on the construction parameters are (00 R6). -/

namespace Sys2Proof

/-- `uop = 0b000` is reserved with any operands (30 R81). -/
def OpFields.uopOk (f : OpFields) : Bool := f.uop ≠ 0b000#3

/-- `level` must be 0 in every operation but MEASURE_WHILE (30 R77, R81). -/
def OpFields.levelOk (f : OpFields) : Bool := f.uop = 0b101#3 || f.level = 0#1

/-- `imm` must be 0 in every operation but MEASURE_WHILE and DELAY (30 R77, R81). -/
def OpFields.immOk (f : OpFields) : Bool := f.uop = 0b101#3 || f.uop = 0b110#3 || f.imm = 0#32

/-- A legal op word: none of the reserved forms of 30 R81. -/
def OpFields.wf (f : OpFields) : Bool := f.uopOk && f.levelOk && f.immOk

namespace Config

/-- `T_RELEASE_US` is open in 20..40 (00 R6, 92 D7). -/
def Params.releaseOk (p : Params) : Bool := 20#32 ≤ p.tReleaseUs && p.tReleaseUs ≤ 40#32

/-- `TO_BIT_HIGH_US` must exceed `BIT_THRESHOLD_US`, else no bit 1 can be decoded (00 R6). -/
def Params.thresholdOk (p : Params) : Bool := p.bitThresholdUs < p.toBitHighUs

/-- `FAMILY` has the one specified value (00 R6, 92 D18). -/
def Params.familyOk (p : Params) : Bool := p.family = .tenths16

/-- The constraints 00 R6 states on the parameters. The 18000 of `T_START_US` is the slower family's requirement on the
environment, stated and not enforced (92 D6), and so is no constraint here. No rule of the machine reads this check. -/
def Params.wf (p : Params) : Bool := p.releaseOk && p.thresholdOk && p.familyOk

end Config

end Sys2Proof
end

