-- ==== Sys2Proof/Decode.lean ====
section
/-! DEFINITION. Op words to operations (30 R77, R78, R81), total and rejecting by name, and back. -/

namespace Sys2Proof

/-- The fields of a word (30 R77). -/
def OpFields.ofWord (w : OpWord) : OpFields :=
  { uop := w.extractLsb' 33 3, level := w.extractLsb' 32 1, imm := w.extractLsb' 0 32 }

/-- The word of some fields (30 R77): `uop ‖ level ‖ imm`. -/
def OpFields.toWord (f : OpFields) : OpWord :=
  (f.uop.zeroExtend 36 <<< 33) ||| (f.level.zeroExtend 36 <<< 32) ||| f.imm.zeroExtend 36

/-- The `level` bit of a level (00 R8). -/
def Level.toBit : Level → BitVec 1
  | .low => 0#1
  | .high => 1#1

/-- The level a `level` bit names (00 R8). -/
def Level.ofBit (b : BitVec 1) : Level := if b = 0#1 then .low else .high

/-- Why a word is no operation (30 R81). -/
inductive Reject where
  /-- `uop = 0b000`, with any operands. -/
  | reservedUop
  /-- `level ≠ 0` where it must be zero. -/
  | levelNotZero
  /-- `imm ≠ 0` where it must be zero. -/
  | immNotZero
  /-- More than 36 bits: no op word at all (30 R77). -/
  | tooWide
  deriving DecidableEq, Repr

/-- An operation whose `level` and `imm` must both be zero (30 R77). -/
def decodeBare (f : OpFields) (i : Instr) : Except Reject Instr :=
  if f.level ≠ 0#1 then .error .levelNotZero
  else if f.imm ≠ 0#32 then .error .immNotZero
  else .ok i

/-- The operation code map (30 R78). -/
def decodeFields (f : OpFields) : Except Reject Instr :=
  if f.uop = 0b001#3 then decodeBare f .driveLow
  else if f.uop = 0b010#3 then decodeBare f .releaseHigh
  else if f.uop = 0b011#3 then decodeBare f .switchToInput
  else if f.uop = 0b100#3 then decodeBare f .readLevel
  else if f.uop = 0b101#3 then .ok (.measureWhile (Level.ofBit f.level) f.imm)
  else if f.uop = 0b110#3 then (if f.level ≠ 0#1 then .error .levelNotZero else .ok (.delay f.imm))
  else if f.uop = 0b111#3 then decodeBare f .read
  else .error .reservedUop

/-- The operation an op word names, or why it is reserved. -/
def decode (w : OpWord) : Except Reject Instr := decodeFields (OpFields.ofWord w)

/-- Decoding of any number: an op word has 36 bits (30 R77). -/
def decodeNat (n : Nat) : Except Reject Instr :=
  if n < 2 ^ 36 then decode (BitVec.ofNat 36 n) else .error .tooWide

/-- The fields of an operation (30 R77, R78). -/
def encodeFields : Instr → OpFields
  | .driveLow => { uop := 0b001#3, level := 0#1, imm := 0#32 }
  | .releaseHigh => { uop := 0b010#3, level := 0#1, imm := 0#32 }
  | .switchToInput => { uop := 0b011#3, level := 0#1, imm := 0#32 }
  | .readLevel => { uop := 0b100#3, level := 0#1, imm := 0#32 }
  | .measureWhile l t => { uop := 0b101#3, level := l.toBit, imm := t }
  | .delay n => { uop := 0b110#3, level := 0#1, imm := n }
  | .read => { uop := 0b111#3, level := 0#1, imm := 0#32 }

/-- The op word of an operation (30 R78). -/
def encode (i : Instr) : OpWord := (encodeFields i).toWord

/-- The operation the decoder reads from a word whose bits are `w`, numbered as spec/opcode_table.json numbers them. An op
word is one parallel word of 36 bits with no byte order (30 R77, 20 R50), so its bits are `w` itself; `nbits` (the table's
width in whole bytes) adds only zero bits above. -/
def decodeTableWord (_nbits w : Nat) : Option Instr :=
  match decodeNat w with
  | .ok i => some i
  | .error _ => none

end Sys2Proof
end

