-- ==== Sys2Proof/Machine/State.lean ====
section
/-! DEFINITION. The state of the block (10 R20), what the spec names beside it (10 R33, R34, R35, 20 R50), and the reset state (10 R38). Plain data only. -/

namespace Sys2Proof.Machine

open Sys2Proof.Config (Params)

/-- `LD.mode` (10 R21). Code 0b11 of 30 R84 is never held and has no constructor. -/
inductive DriveMode where
  | input
  | outLow
  | outHigh
  deriving DecidableEq, Repr

/-- `FD.owner` (10 R22). -/
inductive Owner where
  | listening
  | driving
  deriving DecidableEq, Repr

/-- `FD.phase` (10 R25, 30 R83). Codes 0x9..0xF are never held and have no constructor. -/
inductive Phase where
  | idle
  | requestPulseLow
  | requestPulseRelease
  | awaitResponseLow
  | awaitResponseHigh
  | bitLoopLow
  | bitLoopHigh
  | validate
  | convert
  deriving DecidableEq, Repr

/-- The content of `RES.err` (10 R29, 60 R150). Code 0b11 is never produced and has no constructor. -/
inductive ErrKind where
  | none
  | timeout
  | checksumError
  deriving DecidableEq, Repr

/-- `PT.meas`, the source's PulseMeasurement (10 R24). -/
structure PulseMeas where
  timedOut   : Bool
  durationUs : U32
  deriving DecidableEq, Repr

/-- `FD.frame[0..4]`, the source's RawFrame (10 R27, 30 R73). -/
structure Frame where
  byte0 : Byte
  byte1 : Byte
  byte2 : Byte
  byte3 : Byte
  byte4 : Byte
  deriving DecidableEq, Repr

/-- The response of the last operation executed (30 R79): nothing, the level of READ_LEVEL, or the 33-bit measurement. -/
inductive Response where
  | none
  | level (b : BitVec 1)
  | measurement (m : BitVec 33)
  deriving DecidableEq, Repr

/-- One interval in which the sensor pulls the line: ticks `start ≤ t < stop`, or `start ≤ t` for ever where `stop` is
absent (the `low[a, b)` of 95's conventions). -/
structure Pull where
  start : Nat
  stop  : Option Nat
  deriving DecidableEq, Repr

/-- What the outside world does, tick by tick; the block never writes it (10 R33, R35). -/
structure Env where
  /-- The oracle `sensor_low` (10 R35), as the intervals in which it is 1. -/
  sensor : List Pull
  /-- The ticks at which `cmd_valid = 1`, each with the word on `cmd` (10 R33); for one tick the first entry counts. -/
  cmd : List (Nat × OpWord)
  /-- The ticks at which `rst = 1` (10 R33, R38). -/
  rst : List Nat
  deriving DecidableEq, Repr

/-- Everything the spec gives the block. The first sixteen fields are the registers of 10 R20; the rest is what 10 R34 calls
parameters of the step relation, the operation interface of 20 R50(c), and two fields of the model's own. -/
structure State where
  /-- `LD.mode` (10 R21) -/
  ldMode : DriveMode
  /-- `FD.owner` (10 R22) -/
  fdOwner : Owner
  /-- `PT.level` (10 R23) -/
  ptLevel : Level
  /-- `PT.timeout` (10 R23) -/
  ptTimeout : U32
  /-- `PT.elapsed` (10 R23) -/
  ptElapsed : BitVec 33
  /-- `PT.meas` (10 R24) -/
  ptMeas : PulseMeas
  /-- `DL.count` (10 R28) -/
  dlCount : U32
  /-- `FD.phase` (10 R25) -/
  fdPhase : Phase
  /-- `FD.bitidx` (10 R26) -/
  fdBitidx : BitVec 6
  /-- `FD.frame[0..4]` (10 R27) -/
  fdFrame : Frame
  /-- `RES.busy` (10 R29) -/
  resBusy : Bool
  /-- `RES.done` (10 R29) -/
  resDone : Bool
  /-- `RES.valid` (10 R29, R30) -/
  resValid : Bool
  /-- `RES.err` (10 R29) -/
  resErr : ErrKind
  /-- `RES.hum` (10 R29, R30) -/
  resHum : BitVec 16
  /-- `RES.temp` (10 R29, R30) -/
  resTemp : BitVec 16
  /-- The construction parameters (00 R6); no step changes them. -/
  cfg : Params
  /-- The time in ticks (00 R10); no register of the block. -/
  now : Nat
  /-- The outside world (10 R33, R35); no step changes it. -/
  env : Env
  /-- The op word standing on the operation interface, to be executed next (20 R50(c), 30 R77). -/
  op : Option OpWord
  /-- The response on the operation interface (30 R79). -/
  resp : Response
  /-- The model's own: the port `cmd` of tick `now` has been sampled already (10 R33, 60 R154(e)). -/
  polled : Bool
  /-- The model's own: how many free values have been drawn (92 D5). -/
  draws : Nat
  deriving DecidableEq, Repr

/-- The block's errors Timeout and ChecksumError are recorded in `RES.err` and stop nothing (60 R150, R155, R158), and no
behaviour of 93 has the treatment `fault`: there is no way to fault. -/
inductive Fault where
  deriving DecidableEq, Repr

/-- Why a step has no next state. -/
inductive Refusal where
  /-- No meaning yet: raised by exec's arms only, by mnemonic. Safe. -/
  | notModelled (mnemonic : String)
  /-- A reserved word on the internal operation interface (30 R81, 93 U12): raised by the step. Safe. -/
  | reservedOpWord
  /-- READ_LEVEL while `LD.mode ≠ Input` (40 R103, 92 D19, 93 U3): raised by execReadLevel. Safe. -/
  | readLevelOutsideInput
  /-- MEASURE_WHILE while `LD.mode ≠ Input` (41 R115(f)): raised by execMeasureWhile. Safe. -/
  | measureWhileOutsideInput
  /-- A `FAMILY` other than `Tenths16` (30 R87, 92 D18, 93 U2): raised by the Sequencer at Convert. Safe. -/
  | familyNotSpecified
  deriving DecidableEq, Repr

/-- The outcome of an operation or a step. -/
abbrev Result := Host.Outcome State Fault Refusal

/-- The block right after reset (10 R38), built with the default parameters (00 R6, log 4), at tick 0 of its time (log 1), in
an outside world that does nothing (log 3). -/
def State.reset : State :=
  { ldMode := .input, fdOwner := .listening,
    ptLevel := .low, ptTimeout := 0#32, ptElapsed := 0#33,
    ptMeas := { timedOut := false, durationUs := 0#32 },
    dlCount := 0#32,
    fdPhase := .idle, fdBitidx := 0#6,
    fdFrame := { byte0 := 0#8, byte1 := 0#8, byte2 := 0#8, byte3 := 0#8, byte4 := 0#8 },
    resBusy := false, resDone := false, resValid := false, resErr := .none, resHum := 0#16, resTemp := 0#16,
    cfg := Params.default, now := 0,
    env := { sensor := [], cmd := [], rst := [] },
    op := none, resp := .none, polled := false, draws := 0 }

end Sys2Proof.Machine
end

