-- ==== Sys2Proof/Machine/Codes.lean ====
section
/-! DEFINITION. The bit codes of the small enumerations (30 R80, R83, R84) and of the responses (30 R79). -/

namespace Sys2Proof.Machine

/-- The 4-bit code of `FD.phase` (30 R83). -/
def Phase.code : Phase → BitVec 4
  | .idle => 0x0#4
  | .requestPulseLow => 0x1#4
  | .requestPulseRelease => 0x2#4
  | .awaitResponseLow => 0x3#4
  | .awaitResponseHigh => 0x4#4
  | .bitLoopLow => 0x5#4
  | .bitLoopHigh => 0x6#4
  | .validate => 0x7#4
  | .convert => 0x8#4

/-- The 2-bit code of `LD.mode` (30 R84). -/
def DriveMode.code : DriveMode → BitVec 2
  | .input => 0b00#2
  | .outLow => 0b01#2
  | .outHigh => 0b10#2

/-- The 1-bit code of `FD.owner` (30 R84). -/
def Owner.code : Owner → BitVec 1
  | .listening => 0#1
  | .driving => 1#1

/-- The 2-bit code of `RES.err` (30 R80, 60 R150). -/
def ErrKind.code : ErrKind → BitVec 2
  | .none => 0b00#2
  | .timeout => 0b01#2
  | .checksumError => 0b10#2

/-- The 33-bit response of MEASURE_WHILE (30 R79): bit 32 `timed_out`, bits 31:0 `duration_us`. -/
def PulseMeas.toBits (m : PulseMeas) : BitVec 33 := BitVec.ofBool m.timedOut ++ m.durationUs

end Sys2Proof.Machine
end

