-- ==== Sys2Proof/Machine/Operands.lean ====
section
/-! DEFINITION. What the block reads from outside its registers (the line, the ports `cmd` and `rst`), and the operands with which the Sequencer issues its operations. -/

namespace Sys2Proof.Machine

open Sys2Proof.Config (Params)

/-- Tick `t` lies in the interval. -/
def Pull.covers (p : Pull) (t : Nat) : Bool :=
  decide (p.start ≤ t) && (match p.stop with
    | none => true
    | some e => decide (t < e))

/-- The ticks at which the interval begins and ends. -/
def Pull.edges (p : Pull) : List Nat := p.start :: p.stop.toList

/-- `sensor_low(t)` (10 R35). -/
def Env.sensorLow (e : Env) (t : Nat) : Bool := e.sensor.any (fun p => p.covers t)

/-- Every tick at which `sensor_low` can change. -/
def Env.edges (e : Env) : List Nat := e.sensor.flatMap Pull.edges

/-- The word on `cmd` at tick `t` if `cmd_valid = 1` then (10 R33, log 21). -/
def Env.cmdAt (e : Env) (t : Nat) : Option OpWord := (e.cmd.find? (fun c => c.1 == t)).map Prod.snd

/-- `rst` at tick `t` (10 R33). -/
def Env.rstAt (e : Env) (t : Nat) : Bool := e.rst.contains t

/-- The first tick after `a` and up to `b` with `rst = 1`. -/
def Env.rstWithin (e : Env) (a b : Nat) : Option Nat :=
  (e.rst.filter (fun r => decide (a < r) && decide (r ≤ b))).min?

/-- Line resolution (20 R51): low if the block or the sensor pulls. -/
def lineLevel (mode : DriveMode) (sensorLow : Bool) : Level :=
  if mode = .outLow ∨ sensorLow = true then .low else .high

/-- `LineLevel(t)` while `LD.mode` keeps its present value (20 R51). -/
def State.lineAt (s : State) (t : Nat) : Level := lineLevel s.ldMode (s.env.sensorLow t)

/-- The operation each phase begins with (30 R86, 42 R121 to R125); Idle, Validate and Convert issue none. -/
def firstOp (c : Params) : Phase → Option Instr
  | .idle => none
  | .requestPulseLow => some .driveLow
  | .requestPulseRelease => some .releaseHigh
  | .awaitResponseLow => some (.measureWhile .low c.toAckLowUs)
  | .awaitResponseHigh => some (.measureWhile .high c.toAckHighUs)
  | .bitLoopLow => some (.measureWhile .low c.toBitLowUs)
  | .bitLoopHigh => some (.measureWhile .high c.toBitHighUs)
  | .validate => none
  | .convert => none

end Sys2Proof.Machine
end

