-- ==== Sys2Proof/Machine/Flags.lean ====
section
/-! DEFINITION. The predicates and the arithmetic of the block (10 R31, 42 R132): timeout, decoded bit, checksum, the two result fields, and whether a READ is accepted. -/

namespace Sys2Proof.Machine

/-- `PT.elapsed > PT.timeout` (41 R110, 42 R132(b)): unsigned, on 33 bits. -/
def elapsedExceeds (elapsed : BitVec 33) (timeout : U32) : Bool := timeout.zeroExtend 33 < elapsed

/-- The decoded bit (30 R71, 42 R125, R132(a)): `duration_us > BIT_THRESHOLD_US`, unsigned. -/
def decodedBit (durationUs threshold : U32) : Bool := threshold < durationUs

/-- One bit shifted in at the low end of a byte (30 R74, 42 R132(c)). -/
def shiftIn (byte : Byte) (b : Bool) : Byte := (byte <<< 1) ||| (BitVec.ofBool b).zeroExtend 8

/-- Frame bit `n` appended to byte `n div 8` (30 R74, 42 R125). There is no byte beyond byte4: for `n ≥ 40`, which no
reachable state holds (10 R37(c)), the frame stays (log 16). -/
def Frame.append (f : Frame) (n : Nat) (b : Bool) : Frame :=
  match n / 8 with
  | 0 => { f with byte0 := shiftIn f.byte0 b }
  | 1 => { f with byte1 := shiftIn f.byte1 b }
  | 2 => { f with byte2 := shiftIn f.byte2 b }
  | 3 => { f with byte3 := shiftIn f.byte3 b }
  | 4 => { f with byte4 := shiftIn f.byte4 b }
  | _ => f

/-- Five cleared bytes (42 R120). -/
def Frame.zero : Frame := { byte0 := 0#8, byte1 := 0#8, byte2 := 0#8, byte3 := 0#8, byte4 := 0#8 }

/-- The integer sum of the four data bytes, 0..1020, as received (30 R76, 42 R127). -/
def Frame.sum (f : Frame) : Nat := f.byte0.toNat + f.byte1.toNat + f.byte2.toNat + f.byte3.toNat

/-- The checksum matches (30 R76, 42 R127, R132(e)). -/
def Frame.checksumOk (f : Frame) : Bool := f.sum % 256 == f.byte4.toNat

/-- `hum16 = byte0 ‖ byte1` (30 R75, 42 R128). -/
def Frame.hum16 (f : Frame) : BitVec 16 := f.byte0 ++ f.byte1

/-- `mag15 = byte2[6:0] ‖ byte3` (30 R75, 42 R128). -/
def Frame.mag15 (f : Frame) : BitVec 15 := f.byte2.extractLsb' 0 7 ++ f.byte3

/-- Sign-magnitude to two's complement (30 R75, 42 R128, R132(h)): negated when `byte2[7] = 1`. -/
def Frame.temp16 (f : Frame) : BitVec 16 :=
  if f.byte2.getLsbD 7 then BitVec.ofNat 16 (0x10000 - f.mag15.toNat) else BitVec.ofNat 16 f.mag15.toNat

/-- A READ presented now would be accepted (42 R120). -/
def State.acceptsRead (s : State) : Bool := !s.resBusy

/-- The word sampled from `cmd` in this tick, if it has not been sampled yet (10 R33). -/
def State.sampledCmd (s : State) : Option OpWord := if s.polled then none else s.env.cmdAt s.now

/-- The host port carries the READ word and the block accepts it; every other word is ignored (30 R81, R82). -/
def State.hostIssuesRead (s : State) : Bool :=
  match s.sampledCmd with
  | none => false
  | some w => (match decode w with
    | .ok .read => s.acceptsRead
    | _ => false)

end Sys2Proof.Machine
end

