-- ==== Sys2Proof/Machine/Ports.lean ====
section
/-! DEFINITION. The output ports (10 R33): read-only, side-effect-free views of registers, and the pad input. -/

namespace Sys2Proof.Machine

/-- The ports the host and the pad see (10 R33). -/
structure Ports where
  linePullLow : Bool
  busy  : Bool
  done  : Bool
  valid : Bool
  err   : BitVec 2
  hum   : BitVec 16
  temp  : BitVec 16
  deriving DecidableEq, Repr

/-- `line_pull_low`: 1 exactly when `LD.mode = OutLow` (10 R21, R33). -/
def State.linePullLow (s : State) : Bool := decide (s.ldMode = .outLow)

/-- Every output port, at the present tick (10 R33). -/
def State.ports (s : State) : Ports :=
  { linePullLow := s.linePullLow, busy := s.resBusy, done := s.resDone, valid := s.resValid,
    err := s.resErr.code, hum := s.resHum, temp := s.resTemp }

/-- `line_in`: the level of the line in the present tick (10 R33, 20 R64). -/
def State.lineIn (s : State) : Level := s.lineAt s.now

end Sys2Proof.Machine
end

