-- ==== Sys2Proof/Machine/Ops.lean ====
section
/-! DEFINITION. The named operations over the registers that the meanings and the Sequencer share: time, the search for a change of level, acceptance of READ, abort and return, reset. -/

namespace Sys2Proof.Machine

/-- `advance(k)` (00 R9): k ticks pass. -/
def State.advance (s : State) (k : Nat) : State := { s with now := s.now + k }

/-- The ticks from `now` on at which the level of the line can change, `now` first. -/
def State.lineEdges (s : State) : List Nat := s.now :: s.env.edges.filter (fun t => decide (s.now < t))

/-- `D = min { k ≥ 0 : LineLevel(now + k) ≠ level }`, absent if the line stays at `level` for ever (41 R111). -/
def State.changeAfter (s : State) (level : Level) : Option Nat :=
  ((s.lineEdges.filter (fun t => decide (s.lineAt t ≠ level))).min?).map (fun t => t - s.now)

/-- The Sequencer enters a phase (42 R131): `FD.phase <- p`, and the first operation of the phase stands on the operation
interface in the same tick. -/
def State.enter (p : Phase) (s : State) : State :=
  { s with fdPhase := p, op := (firstOp s.cfg p).map encode }

/-- The Sequencer issues a further operation of the same phase (00 R9, `issue`). -/
def State.issue (i : Instr) (s : State) : State := { s with op := some (encode i) }

/-- The op word is taken from the operation interface, to be executed. -/
def State.takeOp (s : State) : State := { s with op := none }

/-- Acceptance of READ (42 R120): results, bit counter and frame cleared, and RequestPulse.Low entered in the same tick. The
port `cmd` of this tick has been used (10 R33). READ returns nothing on the operation interface (30 R79), and an earlier response
stays there: DESIGN CHOICE (log 6). -/
def State.acceptRead (s : State) : State :=
  State.enter .requestPulseLow
    { s with resBusy := true, resDone := false, resValid := false, resErr := .none, resHum := 0#16, resTemp := 0#16,
             fdBitidx := 0#6, fdFrame := Frame.zero, polled := true }

/-- Abort, the block's trap entry (60 R155): `raise k`. `RES.valid`, `RES.hum`, `RES.temp`, `LD.mode` and `FD.owner` are not
written. -/
def State.abort (k : ErrKind) (s : State) : State :=
  { s with resErr := k, resBusy := false, resDone := true, fdPhase := .idle, op := none }

/-- Return to Idle with a reading (42 R128, R129). -/
def State.returnOk (hum temp : BitVec 16) (s : State) : State :=
  { s with resHum := hum, resTemp := temp, resValid := true, resBusy := false, resDone := true,
           fdPhase := .idle, op := none }

/-- Reset at tick `t` (10 R38, 70 R180): every register at its reset value; the parameters and the outside world stay. -/
def State.resetAt (t : Nat) (s : State) : State :=
  { State.reset with cfg := s.cfg, env := s.env, now := t, draws := s.draws }

/-- One tick with `rst = 1` (10 R38): reset holds, and `cmd` is ignored. -/
def State.heldInReset (s : State) : State := State.resetAt (s.now + 1) s

/-- `rst = 1` at a tick inside an operation wins over it (60 R154(d), 70 R180): if some tick after `s.now` and up to the end of
the step has `rst = 1`, the operation is abandoned at the first of them (log 13). -/
def State.orReset (s t : State) : State :=
  match s.env.rstWithin s.now t.now with
  | some r => State.resetAt r s
  | none => t

/-- One tick in which an idle block does nothing (42 R131, "Idle, otherwise"); the next tick's `cmd` is unsampled. -/
def State.idleTick (s : State) : State := { s.advance 1 with polled := false }

end Sys2Proof.Machine
end

