-- ==== Sys2Proof/Machine/FrameDecoder.lean ====
section
/-! DEFINITION. READ (42 R120) and the Sequencer: what it does when an operation of a transaction completes (42 R121 to R125), and the two computations that issue no operation (42 R127, R128). -/

namespace Sys2Proof.Machine

/-- READ (42 R120): accepted if and only if `RES.busy = 0`; otherwise ignored with no state change (60 R157, log 14). The
phases it sets off are the Sequencer's steps below. READ on the operation interface, which no run has, is accepted in the tick a
read ends too, since `polled` is about the port `cmd` only: DESIGN CHOICE (logs 5 and 7). -/
def execRead (s : State) : Result := if s.acceptsRead then .next s.acceptRead else .next s

/-- A phase that measures ends (42 R122 to R125): Timeout if the measurement timed out, else what follows. -/
def unlessTimedOut (s t : State) : State := if s.ptMeas.timedOut then s.abort .timeout else t

/-- BitLoop.High with a measured duration (42 R125): decide, append, count, and loop or go on to Validate. -/
def appendBit (s : State) : State :=
  State.enter (if s.fdBitidx + 1#6 = BitVec.ofNat 6 Config.nBits then .validate else .bitLoopLow)
    { s with fdFrame := s.fdFrame.append s.fdBitidx.toNat (decodedBit s.ptMeas.durationUs s.cfg.bitThresholdUs),
             fdBitidx := s.fdBitidx + 1#6 }

/-- RequestPulse.Low (42 R121): DRIVE_LOW takes the line, DELAY(`T_START_US`) holds it (log 18). Any DELAY
ends the phase, whatever its operand and what came before it: DESIGN CHOICE (log 20). -/
def afterInLow (i : Instr) (s : State) : State :=
  match i with
  | .driveLow => { s with fdOwner := .driving }.issue (.delay s.cfg.tStartUs)
  | .delay _ => s.enter .requestPulseRelease
  | .releaseHigh | .switchToInput | .readLevel | .measureWhile _ _ | .read => s

/-- RequestPulse.Release (42 R121): RELEASE_HIGH, DELAY(`T_RELEASE_US`), and SWITCH_TO_INPUT gives the line up. Each
of the three moves on whatever its operand and what came before it: DESIGN CHOICE (log 20). -/
def afterInRelease (i : Instr) (s : State) : State :=
  match i with
  | .releaseHigh => s.issue (.delay s.cfg.tReleaseUs)
  | .delay _ => s.issue .switchToInput
  | .switchToInput => { s with fdOwner := .listening }.enter .awaitResponseLow
  | .driveLow | .readLevel | .measureWhile _ _ | .read => s

/-- A phase that measures (42 R122 to R125): `t` is what follows if the measurement has not timed out. Any
MEASURE_WHILE ends the phase, whatever its operands: DESIGN CHOICE (log 20). -/
def afterMeasuring (i : Instr) (s t : State) : State :=
  match i with
  | .measureWhile _ _ => unlessTimedOut s t
  | .driveLow | .releaseHigh | .switchToInput | .readLevel | .delay _ | .read => s

/-- What the Sequencer does when the operation `i` it issued has completed (42 R121 to R125, R131). An operation that is none
of the phase's own has no effect on the Sequencer (log 20). -/
def sequencerAfter (i : Instr) (s : State) : State :=
  match s.fdPhase with
  | .idle => s
  | .requestPulseLow => afterInLow i s
  | .requestPulseRelease => afterInRelease i s
  | .awaitResponseLow => afterMeasuring i s (s.enter .awaitResponseHigh)
  | .awaitResponseHigh => afterMeasuring i s ({ s with fdBitidx := 0#6 }.enter .bitLoopLow)
  | .bitLoopLow => afterMeasuring i s (s.enter .bitLoopHigh)
  | .bitLoopHigh => afterMeasuring i s (appendBit s)
  | .validate => s
  | .convert => s

/-- Validate (42 R127): 0 ticks. -/
def validate (s : State) : State :=
  if s.fdFrame.checksumOk then s.enter .convert else s.abort .checksumError

/-- Convert and the return to Idle (42 R128, R129): 0 ticks. A family the spec does not specify is refused (30 R87, log 12). -/
def convert (s : State) : Result :=
  match s.cfg.family with
  | .tenths16 => .next (s.returnOk s.fdFrame.hum16 s.fdFrame.temp16)
  | .other _ => .refused .familyNotSpecified

end Sys2Proof.Machine
end

