-- ==== Sys2Proof/Machine/LineDriver.lean ====
section
/-! DEFINITION. The LineDriver's operations (40_line_driver.md). -/

namespace Sys2Proof.Machine

/-- DRIVE_LOW (40 R100): `LD.mode <- OutLow`, 0 ticks, no response. -/
def execDriveLow (s : State) : Result := .next { s with ldMode := .outLow, resp := .none }

/-- RELEASE_HIGH (40 R101): `LD.mode <- OutHigh`, 0 ticks, no response. -/
def execReleaseHigh (s : State) : Result := .next { s with ldMode := .outHigh, resp := .none }

/-- SWITCH_TO_INPUT (40 R102): `LD.mode <- Input`, 0 ticks, no response. -/
def execSwitchToInput (s : State) : Result := .next { s with ldMode := .input, resp := .none }

/-- READ_LEVEL (40 R103): responds with `LineLevel(now)`, writes no register, 0 ticks. Its precondition is `LD.mode = Input`;
where it fails a model refuses (92 D19, log 9). -/
def execReadLevel (s : State) : Result :=
  if s.ldMode = .input then .next { s with resp := .level (s.lineAt s.now).toBit }
  else .refused .readLevelOutsideInput

end Sys2Proof.Machine
end

