-- ==== Sys2Proof/Machine/PulseTimer.lean ====
section
/-! DEFINITION. MEASURE_WHILE and DELAY (41_pulse_timer.md). -/

namespace Sys2Proof.Machine

/-- The sampling loop of 41 R110 from `elapsed = e` on, as the spec's pseudocode has it: the elapsed ticks and `timed_out`
where it returns. `fuel` bounds the passes; `timeout + 1 - e` of them always suffice. The model runs the closed form of
41 R111 (`measured`); that the two agree is an obligation. -/
def sampleLoop (s : State) (level : Level) (timeout : U32) : (fuel e : Nat) → Nat × Bool
  | 0, e => (e, true)
  | fuel + 1, e =>
    if s.lineAt (s.now + e) ≠ level then (e, false)
    else if elapsedExceeds (BitVec.ofNat 33 (e + 1)) timeout then (e + 1, true)
    else sampleLoop s level timeout fuel (e + 1)

/-- What a measurement started now returns (41 R111): the elapsed ticks and `timed_out` (log 17). -/
def measured (s : State) (level : Level) (timeout : U32) : Nat × Bool :=
  match s.changeAfter level with
  | some d => if d ≤ timeout.toNat then (d, false) else (timeout.toNat + 1, true)
  | none => (timeout.toNat + 1, true)

/-- The PulseMeasurement (41 R110): the elapsed ticks, or any value where it timed out (92 D5, log 8). -/
def measurementOf (s : State) (m : Nat × Bool) : PulseMeas :=
  { timedOut := m.2, durationUs := if m.2 then Config.freeDuration s.draws else BitVec.ofNat 32 m.1 }

/-- The registers a finished measurement leaves (41 R110), and the tick it returns at. -/
def finishMeasurement (level : Level) (timeout : U32) (m : Nat × Bool) (s : State) : State :=
  { s with ptLevel := level, ptTimeout := timeout, ptElapsed := BitVec.ofNat 33 m.1, ptMeas := measurementOf s m,
           draws := if m.2 then s.draws + 1 else s.draws,
           resp := .measurement (measurementOf s m).toBits, now := s.now + m.1 }

/-- MEASURE_WHILE(level, timeout_us) (41 R110, R111). Its precondition is `LD.mode = Input`; where it fails a model refuses
(41 R115(f), log 10). -/
def execMeasureWhile (level : Level) (timeout : U32) (s : State) : Result :=
  if s.ldMode = .input then .next (finishMeasurement level timeout (measured s level timeout) s)
  else .refused .measureWhileOutsideInput

/-- The countdown loop of 41 R114, as the spec's pseudocode has it. The model runs its equivalent, `advance(n_us)`; that the
two agree is an obligation. -/
def countDown : (fuel : Nat) → State → State
  | 0, s => s
  | fuel + 1, s => if s.dlCount ≠ 0#32 then countDown fuel ({ s with dlCount := s.dlCount - 1#32 }.advance 1) else s

/-- DELAY(n_us) (41 R114): n_us ticks pass and the counter is left at 0; no response. -/
def execDelay (nUs : U32) (s : State) : Result :=
  .next ({ s with dlCount := 0#32, resp := .none }.advance nUs.toNat)

end Sys2Proof.Machine
end

