-- ==== Sys2Proof/Machine/Dispatch.lean ====
section
/-! DEFINITION. One arm per operation of the table (30 R78), each one call of its meaning. -/

namespace Sys2Proof.Machine

def exec (i : Instr) (s : State) : Host.Outcome State Fault Refusal :=
  match i with
  | .driveLow => Sys2Proof.Machine.execDriveLow s
  | .releaseHigh => Sys2Proof.Machine.execReleaseHigh s
  | .switchToInput => Sys2Proof.Machine.execSwitchToInput s
  | .readLevel => Sys2Proof.Machine.execReadLevel s
  | .measureWhile level timeoutUs => Sys2Proof.Machine.execMeasureWhile level timeoutUs s
  | .delay nUs => Sys2Proof.Machine.execDelay nUs s
  | .read => Sys2Proof.Machine.execRead s

end Sys2Proof.Machine
end

