-- ==== Sys2Proof/Machine/Step.lean ====
section
/-! DEFINITION. One step of the block (00 R12(1)): one operation, one computation of the Sequencer, or one tick in which nothing happens. -/

namespace Sys2Proof.Machine

/-- What the step adds to an operation that answered a next state. -/
def onNext (f : State → State) : Result → Result
  | .next s => .next (f s)
  | .fault r => .fault r
  | .refused r => .refused r

/-- An op word on the operation interface is executed, and the Sequencer goes on (00 R9, `issue`); a reserved word is refused
(30 R81, 93 U12, log 11). -/
def runOp (w : OpWord) (s : State) : Result :=
  match decode w with
  | .ok i => onNext (sequencerAfter i) (exec i s.takeOp)
  | .error _ => .refused .reservedOpWord

/-- No op word stands on the operation interface: Idle samples the host port (42 R120, R131), Validate and Convert compute,
and any other phase issues its first operation (log 20). -/
def runPhase (s : State) : Result :=
  match s.fdPhase with
  | .idle => if s.hostIssuesRead then exec .read s else .next s.idleTick
  | .validate => .next (validate s)
  | .convert => convert s
  | p => .next (s.enter p)

/-- One step. `rst = 1` wins over everything, at the tick the step starts at and at every tick up to its end (60 R154(d)). -/
def step (s : State) : Host.Outcome State Fault Refusal :=
  if s.env.rstAt s.now then .next s.heldInReset
  else onNext s.orReset (match s.op with
    | some w => runOp w s
    | none => runPhase s)

/-- `s` with the word `w` standing on the operation interface, where the next step takes its op word from, and `rst = 0` at
the present tick (log 5). Of a number of more than 36 bits, which is no op word, the low 36 bits are placed: DESIGN CHOICE
(log 11). -/
def State.withFetchWord (s : State) (_nbits w : Nat) : State :=
  { s with op := some (BitVec.ofNat 36 w), env := { s.env with rst := s.env.rst.filter (fun r => r != s.now) } }

end Sys2Proof.Machine
end

