-- ==== Sys2Proof/Laws/Decode.lean ====
section
/-! SUPPORT. Fields and words are the same thing (30 R77), and small facts about the `level` bit. -/

namespace Sys2Proof

@[simp] theorem ofWord_toWord (f : OpFields) : OpFields.ofWord f.toWord = f := by
  obtain ⟨u, l, i⟩ := f
  simp only [OpFields.ofWord, OpFields.toWord, OpFields.mk.injEq]
  refine ⟨?_, ?_, ?_⟩ <;> apply BitVec.eq_of_getLsbD_eq <;> intro j hj <;> simp
  · simp [hj, show 33 + j < 36 by omega, show j < 36 by omega, BitVec.getLsbD_of_ge i (33 + j) (by omega),
      BitVec.getLsbD_of_ge l (33 + j - 32) (by omega)]
  · obtain rfl : j = 0 := by omega
    simp
  · simp [hj, show j < 36 by omega]
    intro h1
    omega

@[simp] theorem toWord_ofWord (w : OpWord) : (OpFields.ofWord w).toWord = w := by
  apply BitVec.eq_of_getLsbD_eq
  intro j hj
  simp only [OpFields.ofWord, OpFields.toWord]
  by_cases h1 : j < 32
  · simp [hj, h1]
    intro; omega
  · by_cases h2 : j = 32
    · subst h2; simp
    · obtain ⟨k, rfl⟩ : ∃ k, j = 33 + k := ⟨j - 33, by omega⟩
      simp [show k < 3 by omega, show 33 + k < 36 by omega, show 33 + k - 32 = k + 1 by omega]

@[simp] theorem ofWord_encode (i : Instr) : OpFields.ofWord (encode i) = encodeFields i := ofWord_toWord _

@[simp] theorem ofBit_toBit (l : Level) : Level.ofBit l.toBit = l := by cases l <;> rfl

@[simp] theorem toBit_ofBit (b : BitVec 1) : (Level.ofBit b).toBit = b := by
  obtain rfl | rfl : b = 0#1 ∨ b = 1#1 := by
    have := b.isLt
    rcases b with ⟨⟨n, hn⟩⟩
    have : n = 0 ∨ n = 1 := by omega
    rcases this with rfl | rfl
    · exact .inl rfl
    · exact .inr rfl
  · rfl
  · rfl

/-- Everything `decodeBare` can answer. -/
theorem decodeBare_ok {f : OpFields} {i j : Instr} :
    decodeBare f i = .ok j ↔ f.level = 0#1 ∧ f.imm = 0#32 ∧ i = j := by
  unfold decodeBare
  by_cases hl : f.level = 0#1 <;> by_cases hi : f.imm = 0#32 <;> simp [hl, hi]

end Sys2Proof
end

