-- ==== Sys2Proof/Laws/PerInstr.lean ====
section
/-! SUPPORT. Statements about every operation as syntax, one lemma per constructor. -/

namespace Sys2Proof.Laws.EncodesLegalWord

/-- The word of an operation is none of the reserved words of 30 R81. -/
def Statement (i : Instr) : Prop := (OpFields.ofWord (encode i)).wf = true

theorem driveLow : Statement .driveLow := by unfold Statement; decide
theorem releaseHigh : Statement .releaseHigh := by unfold Statement; decide
theorem switchToInput : Statement .switchToInput := by unfold Statement; decide
theorem readLevel : Statement .readLevel := by unfold Statement; decide
theorem measureWhile (l : Level) (t : U32) : Statement (.measureWhile l t) := by
  simp [Statement, encodeFields, OpFields.wf, OpFields.uopOk, OpFields.levelOk, OpFields.immOk]
theorem delay (n : U32) : Statement (.delay n) := by
  simp [Statement, encodeFields, OpFields.wf, OpFields.uopOk, OpFields.levelOk, OpFields.immOk]
theorem read : Statement .read := by unfold Statement; decide

end Sys2Proof.Laws.EncodesLegalWord
end

