-- ==== Sys2Proof/Safety.lean ====
section
/-! DEFINITION. The terms claims are stated in: runs, the invariants of 10 R29 and R37, the duties of the host and of the sensor, and the outcome of a read as a function of the line (42 R133). -/

namespace Sys2Proof.Safety

open Sys2Proof.Machine Sys2Proof.Config

/-! ### Runs -/

/-- `k` steps. -/
def runSteps : Nat → State → Result
  | 0, s => .next s
  | k + 1, s => match step s with
    | .next t => runSteps k t
    | .fault r => .fault r
    | .refused r => .refused r

/-- `rst = 0` at every tick from `a` to `b`. -/
def NoReset (s : State) (a b : Nat) : Prop := ∀ r ∈ s.env.rst, ¬ (a ≤ r ∧ r ≤ b)

/-! ### The invariant -/

/-- The phases in which the block senses the line or computes (10 R37(d)). -/
def listens : Phase → Bool
  | .awaitResponseLow | .awaitResponseHigh | .bitLoopLow | .bitLoopHigh | .validate | .convert => true
  | .idle | .requestPulseLow | .requestPulseRelease => false

/-- The phases in which bits may have been decoded (10 R37(c)). -/
def afterFirstBit : Phase → Bool
  | .bitLoopLow | .bitLoopHigh | .validate | .convert | .idle => true
  | .requestPulseLow | .requestPulseRelease | .awaitResponseLow | .awaitResponseHigh => false

/-- The op word on the operation interface is the one the Sequencer has issued for this point of the sequence (30 R86), and
`LD.mode` is what the words before it have made it (42 R121). -/
def OpFits (s : State) : Prop :=
  match s.fdPhase with
  | .idle => s.op = none ∧ s.ldMode = .input
  | .requestPulseLow =>
    (s.op = some (encode .driveLow) ∧ s.ldMode = .input) ∨
    (s.op = some (encode (.delay s.cfg.tStartUs)) ∧ s.ldMode = .outLow)
  | .requestPulseRelease =>
    (s.op = some (encode .releaseHigh) ∧ s.ldMode = .outLow) ∨
    (s.op = some (encode (.delay s.cfg.tReleaseUs)) ∧ s.ldMode = .outHigh) ∨
    (s.op = some (encode .switchToInput) ∧ s.ldMode = .outHigh)
  | .awaitResponseLow => s.op = some (encode (.measureWhile .low s.cfg.toAckLowUs))
  | .awaitResponseHigh => s.op = some (encode (.measureWhile .high s.cfg.toAckHighUs))
  | .bitLoopLow => s.op = some (encode (.measureWhile .low s.cfg.toBitLowUs))
  | .bitLoopHigh => s.op = some (encode (.measureWhile .high s.cfg.toBitHighUs))
  | .validate => s.op = none
  | .convert => s.op = none

/-- How many bits byte `i` of the frame has received when `n` bits have been decoded in all. -/
def bitsInByte (n i : Nat) : Nat := min 8 (n - 8 * i)

/-- The invariants of 10 R37 and R29, with what the model needs to keep them: true of every state the block reaches. -/
structure Invariant (s : State) : Prop where
  /-- 10 R37(a) -/
  owner_mode : s.fdOwner = .driving ↔ s.ldMode ≠ .input
  /-- 10 R37(b) -/
  idle_busy : s.fdPhase = .idle ↔ s.resBusy = false
  /-- 10 R37(c) -/
  bitidx_le : s.fdBitidx.toNat ≤ 40
  /-- 10 R37(c) -/
  bitidx_pos : 0 < s.fdBitidx.toNat → afterFirstBit s.fdPhase = true
  /-- 42 R125, R126: the loop is left with 40 bits and not before. -/
  bitidx_loop : s.fdPhase = .bitLoopLow ∨ s.fdPhase = .bitLoopHigh → s.fdBitidx.toNat < 40
  /-- 42 R125: Validate and Convert see a complete frame. -/
  bitidx_full : s.fdPhase = .validate ∨ s.fdPhase = .convert → s.fdBitidx.toNat = 40
  /-- 10 R37(d) -/
  listens_input : listens s.fdPhase = true → s.ldMode = .input
  /-- 30 R86 -/
  op_fits : OpFits s
  /-- 10 R29 -/
  busy_not_done : s.resBusy = true → s.resDone = false
  /-- 10 R29 -/
  valid_ok : s.resValid = true → s.resErr = .none ∧ s.resDone = true
  /-- 10 R29 -/
  err_done : s.resErr ≠ .none → s.resValid = false ∧ s.resDone = true
  /-- 30 R80: a completed read has one of the three outcomes. -/
  done_outcome : s.resDone = true → s.resErr = .none → s.resValid = true
  /-- 30 R80: without a reading the data ports read 0. -/
  no_reading : s.resValid = false → s.resHum = 0#16 ∧ s.resTemp = 0#16
  /-- 42 R128: 0x8000 is never produced. -/
  temp_range : s.resTemp ≠ 0x8000#16
  /-- 42 R132(c): each byte holds only the bits shifted into it since it was cleared. -/
  frame_filled :
    s.fdFrame.byte0.toNat < 2 ^ bitsInByte s.fdBitidx.toNat 0 ∧ s.fdFrame.byte1.toNat < 2 ^ bitsInByte s.fdBitidx.toNat 1 ∧
    s.fdFrame.byte2.toNat < 2 ^ bitsInByte s.fdBitidx.toNat 2 ∧ s.fdFrame.byte3.toNat < 2 ^ bitsInByte s.fdBitidx.toNat 3 ∧
    s.fdFrame.byte4.toNat < 2 ^ bitsInByte s.fdBitidx.toNat 4
  /-- 10 R24: a measurement that did not time out is within its timeout. -/
  meas_le : s.ptMeas.timedOut = false → s.ptMeas.durationUs ≤ s.ptTimeout
  /-- 41 R114: no delay is in progress between steps. -/
  delay_done : s.dlCount = 0#32
  /-- 60 R154(e), log 7: while busy the port `cmd` of the present tick has been sampled. -/
  busy_polled : s.resBusy = true → s.polled = true

/-- At a tick with `rst = 1` every register has its reset value (10 R38). -/
def ResetHolds (s : State) : Prop := s.env.rstAt s.now = true → s = State.resetAt s.now s

/-! ### Duties of the host and of the sensor: premises, never faults of the block -/

/-- 70 R185: the host does not present READ while `busy = 1`, for a read accepted at tick `t0` that ends at `tEnd`: not at any
tick at whose start `busy` reads 1 (92 D14), those inside a DELAY or a MEASURE_WHILE among them (log 23). -/
def NoReadWhileBusy (e : Env) (t0 tEnd : Nat) : Prop := ∀ t, t0 < t → t ≤ tEnd → e.cmdAt t ≠ some (encode .read)

/-- 70 R186: the READs the host presents are at least `tMin` = `T_MIN_INTERVAL_US` ticks apart (an open parameter of the
environment, 92 D23), counted from READ presented to READ presented, ignored ones included: DESIGN CHOICE (log 22). -/
def Spaced (tMin : Nat) (e : Env) : Prop :=
  ∀ a b, e.cmdAt a = some (encode .read) → e.cmdAt b = some (encode .read) → a < b → a + tMin ≤ b

/-- 20 R63, 70 R192: the sensor does not pull while the controller owns the line, ticks `a` to `b - 1`. -/
def SensorYields (e : Env) (a b : Nat) : Prop := ∀ t, a ≤ t → t < b → e.sensorLow t = false

/-- 70 R189: the sensor is already pulling at the tick the block begins to listen. -/
def AnswersBy (e : Env) (t2 : Nat) : Prop := e.sensorLow t2 = true

/-! ### The outcome of a read as a function of the line (42 R133) -/

/-- The line while the block does not pull it: `L(t) = 1 − sensor_low(t)`. -/
def freeLine (e : Env) (t : Nat) : Level := if e.sensorLow t then .low else .high

/-- 41 R111: how many ticks the line stays at `level` from `t` on, absent if that is more than `timeout`. -/
def pulse (line : Nat → Level) (level : Level) (timeout t : Nat) : Option Nat :=
  (List.range (timeout + 1)).find? (fun k => decide (line (t + k) ≠ level))

/-- How a read ends (30 R80). -/
inductive ReadResult where
  | ok (hum temp : BitVec 16)
  | timeout
  | checksumError
  deriving DecidableEq, Repr

/-- The result ports of an outcome (30 R80), the line not pulled (42 R136). -/
def ReadResult.ports : ReadResult → Ports
  | .ok hum temp => ⟨false, false, true, true, 0b00#2, hum, temp⟩
  | .timeout => ⟨false, false, true, false, 0b01#2, 0#16, 0#16⟩
  | .checksumError => ⟨false, false, true, false, 0b10#2, 0#16, 0#16⟩

/-- `n` bit cells from tick `t` on: the bits and the tick they end at, or the tick at which one of their phases timed out. -/
def bitCells (c : Params) (line : Nat → Level) : (n t : Nat) → Except Nat (List Bool × Nat)
  | 0, t => .ok ([], t)
  | n + 1, t =>
    match pulse line .low c.toBitLowUs.toNat t with
    | none => .error (t + c.toBitLowUs.toNat + 1)
    | some d =>
      match pulse line .high c.toBitHighUs.toNat (t + d) with
      | none => .error (t + d + c.toBitHighUs.toNat + 1)
      | some h =>
        match bitCells c line n (t + d + h) with
        | .error e => .error e
        | .ok (bits, e) => .ok (decide (c.bitThresholdUs.toNat < h) :: bits, e)

/-- Byte `i` of 40 bits in order of arrival, most significant bit first (20 R53). -/
def byteOfBits (bits : List Bool) (i : Nat) : Nat :=
  ((bits.drop (8 * i)).take 8).foldl (fun a b => 2 * a + b.toNat) 0

/-- Checksum and conversion of five bytes, in integers (42 R127, R128, R133). -/
def outcomeOfBytes (b0 b1 b2 b3 b4 : Nat) : ReadResult :=
  if (b0 + b1 + b2 + b3) % 256 = b4 then
    .ok (BitVec.ofNat 16 (b0 * 256 + b1))
      (BitVec.ofInt 16 (if 128 ≤ b2 then - (((b2 % 128) * 256 + b3 : Nat) : Int) else ((b2 * 256 + b3 : Nat) : Int)))
  else .checksumError

/-- Checksum and conversion of 40 bits in order of arrival. -/
def outcomeOfBits (bits : List Bool) : ReadResult :=
  outcomeOfBytes (byteOfBits bits 0) (byteOfBits bits 1) (byteOfBits bits 2) (byteOfBits bits 3) (byteOfBits bits 4)

/-- 42 R133: the outcome of a read that begins to listen at tick `t2`, and the tick it ends at. -/
def readOutcome (c : Params) (line : Nat → Level) (t2 : Nat) : ReadResult × Nat :=
  match pulse line .low c.toAckLowUs.toNat t2 with
  | none => (.timeout, t2 + c.toAckLowUs.toNat + 1)
  | some a =>
    match pulse line .high c.toAckHighUs.toNat (t2 + a) with
    | none => (.timeout, t2 + a + c.toAckHighUs.toNat + 1)
    | some b =>
      match bitCells c line nBits (t2 + a + b) with
      | .error e => (.timeout, e)
      | .ok (bits, e) => (outcomeOfBits bits, e)

/-- `t2`: the tick at which a read accepted at `t0` begins to listen (42 R121). -/
def listenTick (c : Params) (t0 : Nat) : Nat := t0 + c.tStartUs.toNat + c.tReleaseUs.toNat

/-- The 87 operations READ expands into (30 R86). -/
def readExpansion (c : Params) : List Instr :=
  [.driveLow, .delay c.tStartUs, .releaseHigh, .delay c.tReleaseUs, .switchToInput,
    .measureWhile .low c.toAckLowUs, .measureWhile .high c.toAckHighUs] ++
  (List.range nBits).flatMap (fun _ => [.measureWhile .low c.toBitLowUs, .measureWhile .high c.toBitHighUs])

end Sys2Proof.Safety
end

