-- ==== Sys2Proof/Certificates/Slice0/Obligations.lean ====
section
/-! DEFINITION. The statements for the provers, and the terms they are written in. -/

namespace Sys2Proof.Claims

open Sys2Proof Sys2Proof.Machine Sys2Proof.Safety Sys2Proof.Config

/-- The level is `l` on the `d` ticks from `t` on and differs at tick `t + d` (00 R11, 41 R111). -/
def HoldsFor (line : Nat → Level) (l : Level) (t d : Nat) : Prop := (∀ k < d, line (t + k) = l) ∧ line (t + d) ≠ l

/-- The level is `l` on all of the `T + 1` ticks from `t` on (41 R111). -/
def HoldsPast (line : Nat → Level) (l : Level) (t T : Nat) : Prop := ∀ k ≤ T, line (t + k) = l

/-- The other level (41 R116). -/
def opposite : Level → Level
  | .low => .high
  | .high => .low

/-- Byte `i` of the frame (30 R73). -/
def byteAt (f : Frame) (i : Nat) : Byte :=
  match i with
  | 0 => f.byte0
  | 1 => f.byte1
  | 2 => f.byte2
  | 3 => f.byte3
  | _ => f.byte4

/-- The frame with another byte `i`. -/
def withByte (f : Frame) (i : Nat) (b : Byte) : Frame :=
  match i with
  | 0 => { f with byte0 := b }
  | 1 => { f with byte1 := b }
  | 2 => { f with byte2 := b }
  | 3 => { f with byte3 := b }
  | _ => { f with byte4 := b }

/-- The registers a measurement of `e` ticks leaves (41 R110), everything else of the state unchanged. -/
def afterMeasurement (s : State) (l : Level) (T : U32) (e : Nat) (m : PulseMeas) : State :=
  { s with ptLevel := l, ptTimeout := T, ptElapsed := BitVec.ofNat 33 e, ptMeas := m, resp := .measurement m.toBits,
           now := s.now + e }

/-- The registers an abort writes (60 R155), everything else unchanged. -/
def aborted (s : State) (k : ErrKind) : State :=
  { s with resErr := k, resBusy := false, resDone := true, fdPhase := .idle, op := none }

/-- A phase that measures `l` with timeout `T`: within the timeout it goes on with `after`, past it the read is aborted with
Timeout at `T + 1` ticks (60 R155); the duration of a timed-out measurement is any value, and the counter `draws` it advances is
the model's own (log 8). -/
def MeasuringPhase (s : State) (l : Level) (T : U32) (after : Nat → State → State) : Prop :=
  (∀ d ≤ T.toNat, HoldsFor (freeLine s.env) l s.now d →
    step s = .next (after d (afterMeasurement s l T d ⟨false, BitVec.ofNat 32 d⟩))) ∧
  (HoldsPast (freeLine s.env) l s.now T.toNat →
    ∃ v : U32, step s = .next
      { aborted (afterMeasurement s l T (T.toNat + 1) ⟨true, v⟩) .timeout with draws := s.draws + 1 })

/-- `s` is at a phase that measures, its op word issued, and no reset comes while it measures. -/
def Measuring (s : State) (p : Phase) (l : Level) (T : U32) : Prop :=
  s.fdPhase = p ∧ s.op = some (encode (.measureWhile l T)) ∧ s.ldMode = .input ∧ NoReset s s.now (s.now + T.toNat + 1)

/-- A step from `s` to `t` against the transition table (42 R131): a whole row with its tick cost, or for the two request-pulse
phases one operation of the phase (log 1). -/
def TransitionRow (s t : State) : Prop :=
  match s.fdPhase with
  | .idle =>
    (s.hostIssuesRead = true ∧ t.fdPhase = .requestPulseLow ∧ t.now = s.now) ∨
    (s.hostIssuesRead = false ∧ t.fdPhase = .idle ∧ t.now = s.now + 1)
  | .requestPulseLow =>
    (s.op = some (encode .driveLow) ∧ t.fdPhase = .requestPulseLow ∧ t.now = s.now) ∨
    (s.op = some (encode (.delay s.cfg.tStartUs)) ∧ t.fdPhase = .requestPulseRelease ∧
      t.now = s.now + s.cfg.tStartUs.toNat)
  | .requestPulseRelease =>
    (s.op = some (encode .releaseHigh) ∧ t.fdPhase = .requestPulseRelease ∧ t.now = s.now) ∨
    (s.op = some (encode (.delay s.cfg.tReleaseUs)) ∧ t.fdPhase = .requestPulseRelease ∧
      t.now = s.now + s.cfg.tReleaseUs.toNat) ∨
    (s.op = some (encode .switchToInput) ∧ t.fdPhase = .awaitResponseLow ∧ t.now = s.now)
  | .awaitResponseLow => measuringRow s.cfg.toAckLowUs .awaitResponseHigh
  | .awaitResponseHigh => measuringRow s.cfg.toAckHighUs .bitLoopLow
  | .bitLoopLow => measuringRow s.cfg.toBitLowUs .bitLoopHigh
  | .bitLoopHigh => measuringRow s.cfg.toBitHighUs (if t.fdBitidx = 40#6 then .validate else .bitLoopLow)
  | .validate =>
    t.now = s.now ∧
    (((s.fdFrame.byte0.toNat + s.fdFrame.byte1.toNat + s.fdFrame.byte2.toNat + s.fdFrame.byte3.toNat) % 256 =
        s.fdFrame.byte4.toNat ∧ t.fdPhase = .convert) ∨
     ((s.fdFrame.byte0.toNat + s.fdFrame.byte1.toNat + s.fdFrame.byte2.toNat + s.fdFrame.byte3.toNat) % 256 ≠
        s.fdFrame.byte4.toNat ∧ t.fdPhase = .idle ∧ t.resErr = .checksumError))
  | .convert => t.now = s.now ∧ t.fdPhase = .idle ∧ t.resValid = true
where
  /-- The rows of a phase that measures: not timed out at the cost of the duration, or Timeout at `T + 1` ticks. -/
  measuringRow (T : U32) (next : Phase) : Prop :=
    (t.ptMeas.timedOut = false ∧ t.ptMeas.durationUs ≤ T ∧ t.fdPhase = next ∧
      t.now = s.now + t.ptMeas.durationUs.toNat) ∨
    (t.ptMeas.timedOut = true ∧ t.fdPhase = .idle ∧ t.resErr = .timeout ∧ t.now = s.now + T.toNat + 1)

/-- The values 10 R38 gives for reset. -/
def ResetValues (s : State) : Prop :=
  s.ldMode = .input ∧ s.fdOwner = .listening ∧ s.fdPhase = .idle ∧ s.fdBitidx = 0#6 ∧
  s.fdFrame = ⟨0#8, 0#8, 0#8, 0#8, 0#8⟩ ∧ s.ptLevel = .low ∧ s.ptTimeout = 0#32 ∧ s.ptElapsed = 0#33 ∧
  s.ptMeas = ⟨false, 0#32⟩ ∧ s.dlCount = 0#32 ∧ s.resBusy = false ∧ s.resDone = false ∧ s.resValid = false ∧
  s.resErr = .none ∧ s.resHum = 0#16 ∧ s.resTemp = 0#16

/-- Two runs show the host and the pad the same: the same ports at the same tick, or both stopped for the same reason. -/
def SameView : Result → Result → Prop
  | .next s, .next t => s.ports = t.ports ∧ s.now = t.now
  | .refused r, .refused q => r = q
  | _, _ => False

/-- `k` steps from `s` reach Idle at `t` for the first time: the block was busy after each of the steps before. -/
def ReachesIdle (s : State) (k : Nat) (t : State) : Prop :=
  runSteps k s = .next t ∧ t.resBusy = false ∧ t.fdPhase = .idle ∧
  ∀ j < k, ∃ u, runSteps j s = .next u ∧ u.resBusy = true

/-- Bit `n` of a frame, `n` in order of arrival (20 R53). -/
def frameBit (f : Frame) (n : Nat) : Bool := (byteAt f (n / 8)).getLsbD (7 - n % 8)

/-- The tick at which bit cell `n` begins, for cells of the given widths from tick `t` on. -/
def cellStart (lo hi : Nat → Nat) (t : Nat) : Nat → Nat
  | 0 => t
  | n + 1 => cellStart lo hi t n + lo n + hi n

/-- The line carries the frame `f` from tick `t2` on (30 R72): `a` ticks of acknowledgement low, `b` of acknowledgement high,
then forty cells of `lo n` low and `hi n` high ticks, every pulse within its timeout, and every high wider than the threshold
exactly where the frame has a 1. -/
def Carries (c : Params) (line : Nat → Level) (t2 a b : Nat) (lo hi : Nat → Nat) (f : Frame) : Prop :=
  a ≤ c.toAckLowUs.toNat ∧ HoldsFor line .low t2 a ∧
  b ≤ c.toAckHighUs.toNat ∧ HoldsFor line .high (t2 + a) b ∧
  ∀ n < 40, lo n ≤ c.toBitLowUs.toNat ∧ HoldsFor line .low (cellStart lo hi (t2 + a + b) n) (lo n) ∧
    hi n ≤ c.toBitHighUs.toNat ∧ HoldsFor line .high (cellStart lo hi (t2 + a + b) n + lo n) (hi n) ∧
    (c.bitThresholdUs.toNat < hi n ↔ frameBit f n = true)

end Sys2Proof.Claims

open Sys2Proof Sys2Proof.Machine Sys2Proof.Safety Sys2Proof.Config Sys2Proof.Claims

/-! ### Encodings -/

/-- 30 R77, R78: decoding the word of any operation gives the operation back, with every operand at every value. -/
def Obligations.DecodeOfEncodeIsTheOperation : Prop := ∀ i : Instr, decode (encode i) = .ok i

/-- 30 R77, R78: a word that decodes is the word of its operation, so each operation has one word. -/
def Obligations.EncodeOfDecodeIsTheWord : Prop := ∀ (w : OpWord) (i : Instr), decode w = .ok i → encode i = w

/-- 30 R78: a word selects a row exactly when `w & mask = match`, for the seven rows of the table. -/
def Obligations.OpcodeMapSelectsByMatchAndMask : Prop :=
  ∀ w : OpWord,
    (decode w = .ok .driveLow ↔ w &&& 0xFFFFFFFFF#36 = 0x200000000#36) ∧
    (decode w = .ok .releaseHigh ↔ w &&& 0xFFFFFFFFF#36 = 0x400000000#36) ∧
    (decode w = .ok .switchToInput ↔ w &&& 0xFFFFFFFFF#36 = 0x600000000#36) ∧
    (decode w = .ok .readLevel ↔ w &&& 0xFFFFFFFFF#36 = 0x800000000#36) ∧
    ((∃ l T, decode w = .ok (.measureWhile l T)) ↔ w &&& 0xE00000000#36 = 0xA00000000#36) ∧
    ((∃ n, decode w = .ok (.delay n)) ↔ w &&& 0xF00000000#36 = 0xC00000000#36) ∧
    (decode w = .ok .read ↔ w &&& 0xFFFFFFFFF#36 = 0xE00000000#36)

/-- 30 R81: exactly the words the rule lists are reserved; on the host port of an idle block such a word is ignored, on the
operation interface it is refused, and the Sequencer never issues one (log 11); that the idle step passes one tick is the
model's choice (log 15). -/
def Obligations.ReservedWordsAreIgnoredOrRefused : Prop :=
  (∀ w : OpWord, (∃ r, decode w = .error r) ↔
    (w.extractLsb' 33 3 = 0b000#3 ∨
     (w.extractLsb' 33 3 ∈ [0b001#3, 0b010#3, 0b011#3, 0b100#3, 0b111#3] ∧
       (w.extractLsb' 32 1 ≠ 0#1 ∨ w.extractLsb' 0 32 ≠ 0#32)) ∨
     (w.extractLsb' 33 3 = 0b110#3 ∧ w.extractLsb' 32 1 ≠ 0#1))) ∧
  (∀ (s : State) (w : OpWord) (r : Reject), decode w = .error r → s.env.rstAt s.now = false → s.op = some w →
    step s = .refused .reservedOpWord) ∧
  (∀ (s : State) (w : OpWord) (r : Reject), decode w = .error r → s.env.cmdAt s.now = some w →
    s.fdPhase = .idle → s.op = none → NoReset s s.now (s.now + 1) →
    step s = .next { s with now := s.now + 1, polled := false }) ∧
  (∀ (s : State) (w : OpWord), Invariant s → s.op = some w → ∃ i, decode w = .ok i)

/-- 30 R78, 95 V70 to V89: words written out from the table decode to the operations they stand for. -/
def Obligations.TableWordsDecode : Prop :=
  decode 0x200000000#36 = .ok .driveLow ∧ decode 0x400000000#36 = .ok .releaseHigh ∧
  decode 0x600000000#36 = .ok .switchToInput ∧ decode 0x800000000#36 = .ok .readLevel ∧
  decode 0xA00000055#36 = .ok (.measureWhile .low 85#32) ∧ decode 0xB0000004B#36 = .ok (.measureWhile .high 75#32) ∧
  decode 0xC00004E20#36 = .ok (.delay 20000#32) ∧ decode 0xE00000000#36 = .ok .read ∧
  decode 0x300000000#36 = .error .levelNotZero ∧ decode 0xE00000001#36 = .error .immNotZero ∧
  decode 0x1FFFFFFFF#36 = .error .reservedUop

/-- 30 R83, R84: the codes of the phases, of the drive modes and of the owners; the unused codes are never held. -/
def Obligations.SmallEnumerationsHaveTheirCodes : Prop :=
  Phase.idle.code = 0x0#4 ∧ Phase.requestPulseLow.code = 0x1#4 ∧ Phase.requestPulseRelease.code = 0x2#4 ∧
  Phase.awaitResponseLow.code = 0x3#4 ∧ Phase.awaitResponseHigh.code = 0x4#4 ∧ Phase.bitLoopLow.code = 0x5#4 ∧
  Phase.bitLoopHigh.code = 0x6#4 ∧ Phase.validate.code = 0x7#4 ∧ Phase.convert.code = 0x8#4 ∧
  (∀ p : Phase, p.code.toNat ≤ 8) ∧
  DriveMode.input.code = 0b00#2 ∧ DriveMode.outLow.code = 0b01#2 ∧ DriveMode.outHigh.code = 0b10#2 ∧
  (∀ m : DriveMode, m.code ≠ 0b11#2) ∧ Owner.listening.code = 0#1 ∧ Owner.driving.code = 1#1

/-! ### The line and the LineDriver -/

/-- 20 R51, 10 R33: the line is low exactly when the block or the sensor pulls, and `OutHigh` and `Input` contribute the same;
`line_pull_low` is 1 exactly in `OutLow`, `line_in` is the level of the present tick, and every other port is its register. -/
def Obligations.LineIsWiredAnd : Prop :=
  ∀ s : State,
    (∀ t : Nat,
      (s.lineAt t = .low ↔ s.ldMode = .outLow ∨ s.env.sensorLow t = true) ∧
      (s.lineAt t = .high ↔ s.ldMode ≠ .outLow ∧ s.env.sensorLow t = false) ∧
      ({ s with ldMode := .outHigh }.lineAt t = { s with ldMode := .input }.lineAt t)) ∧
    (s.linePullLow = true ↔ s.ldMode = .outLow) ∧ s.lineIn = s.lineAt s.now ∧
    (s.lineIn = .low ↔ s.ldMode = .outLow ∨ s.env.sensorLow s.now = true) ∧
    s.ports = ⟨s.linePullLow, s.resBusy, s.resDone, s.resValid, s.resErr.code, s.resHum, s.resTemp⟩

/-- 40 R100: DRIVE_LOW completes from every state, writes `LD.mode` and nothing else but the empty response, takes 0 ticks,
and the line is low from then on whatever the sensor does. -/
def Obligations.DriveLowPullsTheLine : Prop :=
  decode 0x200000000#36 = .ok .driveLow ∧
  ∀ s : State, exec .driveLow s = .next { s with ldMode := .outLow, resp := .none } ∧
    ∀ t : Nat, { s with ldMode := .outLow, resp := .none }.lineAt t = .low

/-- 40 R101: RELEASE_HIGH completes from every state, writes `LD.mode` and nothing else but the empty response, takes 0
ticks, and the line is what the sensor makes it. -/
def Obligations.ReleaseHighStopsPulling : Prop :=
  decode 0x400000000#36 = .ok .releaseHigh ∧
  ∀ s : State, exec .releaseHigh s = .next { s with ldMode := .outHigh, resp := .none } ∧
    ∀ t : Nat, { s with ldMode := .outHigh, resp := .none }.lineAt t = if s.env.sensorLow t then .low else .high

/-- 40 R102: SWITCH_TO_INPUT completes from every state, writes `LD.mode` and nothing else but the empty response, takes 0
ticks, the line is what the sensor makes it, and READ_LEVEL at the same tick reads it. -/
def Obligations.SwitchToInputGivesTheLineUp : Prop :=
  decode 0x600000000#36 = .ok .switchToInput ∧
  ∀ s : State, exec .switchToInput s = .next { s with ldMode := .input, resp := .none } ∧
    (∀ t : Nat, { s with ldMode := .input, resp := .none }.lineAt t = if s.env.sensorLow t then .low else .high) ∧
    exec .readLevel { s with ldMode := .input, resp := .none } =
      .next { s with ldMode := .input, resp := .level (if s.env.sensorLow s.now then 0#1 else 1#1) }

/-- 40 R103, 20 R52, R64: in input mode READ_LEVEL responds with the level of the present tick and changes nothing else, twice
the same. In the two other modes the model refuses it (log 9, 92 D19), and the Sequencer never has a sample taken there, which
the spec derives from 10 R37(d) and 41 R110. -/
def Obligations.ReadLevelSamplesTheLine : Prop :=
  decode 0x800000000#36 = .ok .readLevel ∧
  (∀ s : State, s.ldMode = .input → ∃ t : State,
    exec .readLevel s = .next t ∧ t = { s with resp := .level (if s.env.sensorLow s.now then 0#1 else 1#1) } ∧
    exec .readLevel t = .next t) ∧
  (∀ s : State, s.ldMode ≠ .input → exec .readLevel s = .refused .readLevelOutsideInput) ∧
  (∀ s : State, Invariant s → s.ldMode ≠ .input →
    s.op ≠ some (encode .readLevel) ∧ ∀ l T, s.op ≠ some (encode (.measureWhile l T)))

/-- 40 R105: the mode transition table, with reset; no other operation and no computation of the Sequencer changes `LD.mode`.
Reset is a step of one tick (log 13). -/
def Obligations.ModeTransitionTable : Prop :=
  (∀ s : State, (∃ t, exec .driveLow s = .next t ∧ t.ldMode = .outLow) ∧
    (∃ t, exec .releaseHigh s = .next t ∧ t.ldMode = .outHigh) ∧
    (∃ t, exec .switchToInput s = .next t ∧ t.ldMode = .input) ∧
    (s.env.rstAt s.now = true → ∃ t, step s = .next t ∧ t.ldMode = .input)) ∧
  (∀ (i : Instr) (s t : State), i ≠ .driveLow → i ≠ .releaseHigh → i ≠ .switchToInput → exec i s = .next t →
    t.ldMode = s.ldMode) ∧
  (∀ s t : State, s.fdPhase = .validate ∨ s.fdPhase = .convert → s.op = none → s.env.rstAt s.now = false →
    step s = .next t → t.ldMode = s.ldMode)

/-! ### The PulseTimer -/

/-- 41 R111: in input mode MEASURE_WHILE completes; a level that first differs at `D ≤ timeout_us` is measured as `D` at tick
`now + D`, a level held on all of the `timeout_us + 1` ticks times out at `now + timeout_us + 1` with any duration; nothing
but the PulseTimer's registers, the response, the time and on a timeout the model's counter of free values (log 8) changes. The
response has `timed_out` at bit 32 and `duration_us` at bits 31:0 (30 R79). -/
def Obligations.MeasureWhileClosedForm : Prop :=
  ∀ (s : State) (l : Level) (T : U32), s.ldMode = .input →
    (∀ D ≤ T.toNat, HoldsFor (freeLine s.env) l s.now D →
      exec (.measureWhile l T) s = .next (afterMeasurement s l T D ⟨false, BitVec.ofNat 32 D⟩)) ∧
    (HoldsPast (freeLine s.env) l s.now T.toNat → ∃ v : U32,
      exec (.measureWhile l T) s =
        .next { afterMeasurement s l T (T.toNat + 1) ⟨true, v⟩ with draws := s.draws + 1 }) ∧
    ∃ (t : State) (r : BitVec 33), exec (.measureWhile l T) s = .next t ∧ t.now ≤ s.now + T.toNat + 1 ∧
      t.resp = .measurement r ∧ r.getLsbD 32 = t.ptMeas.timedOut ∧ r.extractLsb' 0 32 = t.ptMeas.durationUs

/-- 41 R110: MEASURE_WHILE is the sampling loop of the rule, one sample a tick from `now` on, and its word is
`0xA00000000 | level << 32 | timeout_us`; outside input mode, where the precondition fails, the model refuses it. -/
def Obligations.MeasureWhileIsTheSamplingLoop : Prop :=
  ∀ (s : State) (l : Level) (T : U32),
    decode (0xA00000000#36 ||| (if l = .high then 1#36 else 0#36) <<< 32 ||| T.zeroExtend 36) = .ok (.measureWhile l T) ∧
    (s.ldMode = .input →
      exec (.measureWhile l T) s = .next (finishMeasurement l T (sampleLoop s l T (T.toNat + 1) 0) s)) ∧
    (s.ldMode ≠ .input → exec (.measureWhile l T) s = .refused .measureWhileOutsideInput)

/-- 41 R116: a measurement of the opposite level that follows one that did not time out starts at the tick the first one
returned, counts that tick, and the two durations together are the time that has passed. -/
def Obligations.BackToBackMeasurementsCountEveryTick : Prop :=
  ∀ (s t u : State) (l : Level) (T T' : U32),
    exec (.measureWhile l T) s = .next t → t.ptMeas.timedOut = false →
    exec (.measureWhile (opposite l) T') t = .next u → u.ptMeas.timedOut = false →
    u.now = s.now + t.ptMeas.durationUs.toNat + u.ptMeas.durationUs.toNat ∧ 1 ≤ u.ptMeas.durationUs.toNat ∧
    (∀ k, s.now ≤ k → k < t.now → freeLine s.env k = l) ∧
    (∀ k, t.now ≤ k → k < u.now → freeLine s.env k = opposite l) ∧ freeLine s.env u.now = l

/-- 41 R114: DELAY completes from every state after exactly `n_us` ticks, writes `DL.count` and nothing else but the empty
response, and is the countdown loop of the rule. -/
def Obligations.DelayWaitsExactly : Prop :=
  ∀ (s : State) (n : U32),
    decode (0xC00000000#36 ||| n.zeroExtend 36) = .ok (.delay n) ∧
    exec (.delay n) s = .next { s with dlCount := 0#32, resp := .none, now := s.now + n.toNat } ∧
    exec (.delay n) s = .next (countDown n.toNat { s with dlCount := n, resp := .none })

/-! ### READ and its phases -/

/-- 42 R120: a READ is accepted when `RES.busy = 0`: the results, the bit counter and the frame are cleared, and
RequestPulse.Low, whose first operation is DRIVE_LOW, begins at the same tick; nothing else changes, an earlier response included
(log 6). -/
def Obligations.ReadIsAcceptedWhenNotBusy : Prop :=
  decode 0xE00000000#36 = .ok .read ∧
  ∀ s : State, s.resBusy = false →
    exec .read s = .next
      { s with resBusy := true, resDone := false, resValid := false, resErr := .none, resHum := 0#16, resTemp := 0#16,
               fdBitidx := 0#6, fdFrame := ⟨0#8, 0#8, 0#8, 0#8, 0#8⟩, fdPhase := .requestPulseLow,
               op := some 0x200000000#36, polled := true }

/-- 60 R157: a READ while `RES.busy = 1` is ignored and changes nothing; and whatever the host presents on `cmd`, a busy block
takes the same step. -/
def Obligations.HostIsIgnoredWhileBusy : Prop :=
  (∀ s : State, s.resBusy = true → exec .read s = .next s) ∧
  (∀ (s : State) (c : List (Nat × OpWord)), Invariant s → s.resBusy = true →
    step { s with env := { s.env with cmd := c } } =
      onNext (fun t => { t with env := { t.env with cmd := c } }) (step s))

/-- 30 R82: in an idle block READ, and no other word on `cmd`, is accepted, once per tick; with any other word or with none a
tick passes and no register changes; the sampling once per tick is log 7, the one tick log 15. -/
def Obligations.IdleBlockAcceptsOnlyRead : Prop :=
  ∀ s : State, s.fdPhase = .idle → s.resBusy = false → s.op = none → NoReset s s.now (s.now + 1) →
    (s.polled = false → s.env.cmdAt s.now = some 0xE00000000#36 → step s = exec .read s) ∧
    (s.env.cmdAt s.now ≠ some 0xE00000000#36 ∨ s.polled = true →
      step s = .next { s with now := s.now + 1, polled := false })

/-- 60 R154(e), 92 D14, log 7: a READ presented in the tick a read ends is ignored, and one presented in the next tick is
accepted; the step between them passes one tick (log 15). -/
def Obligations.ReadInTheEndTickIsIgnored : Prop :=
  ∀ s t : State, Invariant s → s.resBusy = true → step s = .next t → t.resBusy = false →
    NoReset s s.now (t.now + 1) →
    ∃ u, step t = .next u ∧ u = { t with now := t.now + 1, polled := false } ∧
      (u.env.cmdAt u.now = some 0xE00000000#36 → step u = exec .read u)

/-- 42 R121: from acceptance at `t0` the line is pulled on ticks `t0 .. t1 − 1`, released at `t1`, and given to the sensor at
`t2`, where AwaitResponseLow begins; the five op words are the rule's, and they change nothing but what the rule names, `DL.count`
and the response (log 6); one word a step is log 1, and the steps in which the owner changes are log 18. -/
def Obligations.RequestPulse : Prop :=
  ∀ s : State, s.resBusy = false → NoReset s s.now (listenTick s.cfg s.now) →
    ∃ s1 s2 s3 s4 s5 : State,
      step s.acceptRead = .next s1 ∧ step s1 = .next s2 ∧ step s2 = .next s3 ∧ step s3 = .next s4 ∧ step s4 = .next s5 ∧
      s1.ldMode = .outLow ∧ s1.fdOwner = .driving ∧ s1.now = s.now ∧ s1.fdPhase = .requestPulseLow ∧
      (∀ t, s.now ≤ t → t < s.now + s.cfg.tStartUs.toNat → s1.lineAt t = .low) ∧
      s1.op = some (0xC00000000#36 ||| s.cfg.tStartUs.zeroExtend 36) ∧ s2.op = some 0x400000000#36 ∧
      s3.op = some (0xC00000000#36 ||| s.cfg.tReleaseUs.zeroExtend 36) ∧ s4.op = some 0x600000000#36 ∧
      s2.ldMode = .outLow ∧ s2.now = s.now + s.cfg.tStartUs.toNat ∧ s2.fdPhase = .requestPulseRelease ∧
      s3.ldMode = .outHigh ∧ s3.fdOwner = .driving ∧ s3.now = s.now + s.cfg.tStartUs.toNat ∧
      (∀ t, s3.lineAt t = freeLine s.env t) ∧
      s4.ldMode = .outHigh ∧ s4.now = listenTick s.cfg s.now ∧
      s5 = { s.acceptRead with ldMode := .input, fdOwner := .listening, dlCount := 0#32, fdPhase := .awaitResponseLow,
                               op := some (encode (.measureWhile .low s.cfg.toAckLowUs)), resp := .none,
                               now := listenTick s.cfg s.now }

/-- 42 R122: AwaitResponseLow measures the low line with `TO_ACK_LOW_US` and goes on to AwaitResponseHigh, or ends the read
with Timeout (60 R155), where the model's counter of free values advances (log 8). -/
def Obligations.AwaitResponseLow : Prop :=
  ∀ s : State, Measuring s .awaitResponseLow .low s.cfg.toAckLowUs →
    MeasuringPhase s .low s.cfg.toAckLowUs (fun _ t =>
      { t with fdPhase := .awaitResponseHigh, op := some (encode (.measureWhile .high s.cfg.toAckHighUs)) })

/-- 42 R123: AwaitResponseHigh measures the high line with `TO_ACK_HIGH_US` and goes on to the bit loop, or ends the read with
Timeout (60 R155), where the model's counter of free values advances (log 8). -/
def Obligations.AwaitResponseHigh : Prop :=
  ∀ s : State, Measuring s .awaitResponseHigh .high s.cfg.toAckHighUs →
    MeasuringPhase s .high s.cfg.toAckHighUs (fun _ t =>
      { t with fdBitidx := 0#6, fdPhase := .bitLoopLow, op := some (encode (.measureWhile .low s.cfg.toBitLowUs)) })

/-- 42 R124: BitLoop.Low measures the low line with `TO_BIT_LOW_US` and goes on to BitLoop.High, or ends the read with
Timeout (60 R155), where the model's counter of free values advances (log 8). -/
def Obligations.BitLoopLow : Prop :=
  ∀ s : State, Measuring s .bitLoopLow .low s.cfg.toBitLowUs →
    MeasuringPhase s .low s.cfg.toBitLowUs (fun _ t =>
      { t with fdPhase := .bitLoopHigh, op := some (encode (.measureWhile .high s.cfg.toBitHighUs)) })

/-- 42 R125: BitLoop.High measures the high line with `TO_BIT_HIGH_US`, appends the bit `d > BIT_THRESHOLD_US` to byte
`n div 8` and counts it, and goes on to the next cell or after the 40th bit to Validate; or ends the read with Timeout
(60 R155), appending nothing, where the model's counter of free values advances (log 8). -/
def Obligations.BitLoopHigh : Prop :=
  ∀ s : State, Measuring s .bitLoopHigh .high s.cfg.toBitHighUs → s.fdBitidx.toNat < 40 →
    MeasuringPhase s .high s.cfg.toBitHighUs (fun d t =>
      { t with
        fdFrame := withByte s.fdFrame (s.fdBitidx.toNat / 8)
          (BitVec.ofNat 8 (2 * (byteAt s.fdFrame (s.fdBitidx.toNat / 8)).toNat +
            (if s.cfg.bitThresholdUs.toNat < d then 1 else 0))),
        fdBitidx := BitVec.ofNat 6 (s.fdBitidx.toNat + 1),
        fdPhase := if s.fdBitidx.toNat + 1 = 40 then .validate else .bitLoopLow,
        op := if s.fdBitidx.toNat + 1 = 40 then none else some (encode (.measureWhile .low s.cfg.toBitLowUs)) })

/-- 42 R127, 60 R152, R155: Validate takes 0 ticks; a frame whose first four bytes sum mod 256 to the fifth goes on to
Convert, any other ends the read with ChecksumError; nothing else changes. -/
def Obligations.ValidateChecksTheSum : Prop :=
  ∀ s : State, s.fdPhase = .validate → s.op = none → s.env.rstAt s.now = false →
    ((s.fdFrame.byte0.toNat + s.fdFrame.byte1.toNat + s.fdFrame.byte2.toNat + s.fdFrame.byte3.toNat) % 256 =
        s.fdFrame.byte4.toNat → step s = .next { s with fdPhase := .convert }) ∧
    ((s.fdFrame.byte0.toNat + s.fdFrame.byte1.toNat + s.fdFrame.byte2.toNat + s.fdFrame.byte3.toNat) % 256 ≠
        s.fdFrame.byte4.toNat →
      step s = .next { s with resErr := .checksumError, resBusy := false, resDone := true, fdPhase := .idle })

/-- 42 R128, R129, 30 R75: Convert takes 0 ticks and returns to Idle with the humidity `byte0 ‖ byte1` and the temperature as a
sign and a 15-bit magnitude made two's complement, never 0x8000; nothing else changes. A family the spec does not specify is
refused (log 12). -/
def Obligations.ConvertMakesTheReading : Prop :=
  ∀ s : State, s.fdPhase = .convert → s.op = none → s.env.rstAt s.now = false →
    (s.cfg.family = .tenths16 → ∃ h t : BitVec 16,
      step s = .next { s with resHum := h, resTemp := t, resValid := true, resBusy := false, resDone := true,
                              fdPhase := .idle } ∧
      h.toNat = s.fdFrame.byte0.toNat * 256 + s.fdFrame.byte1.toNat ∧
      t.toInt = (if s.fdFrame.byte2.getLsbD 7 then -1 else 1) *
        ((s.fdFrame.byte2.toNat % 128 * 256 + s.fdFrame.byte3.toNat : Nat) : Int) ∧
      t ≠ 0x8000#16) ∧
    (s.cfg.family ≠ .tenths16 → step s = .refused .familyNotSpecified)

/-- 30 R71: the decoded bit is 1 exactly when the duration exceeds the threshold; with the default threshold 40 is a 0 and 41
is a 1. -/
def Obligations.ThresholdIsInclusiveOnTheZeroSide : Prop :=
  (∀ d threshold : U32, decodedBit d threshold = true ↔ threshold.toNat < d.toNat) ∧
  decodedBit 40#32 Params.default.bitThresholdUs = false ∧ decodedBit 41#32 Params.default.bitThresholdUs = true

/-- 20 R53, 30 R74: forty bits appended in order to a cleared frame leave frame bit `n` at bit `7 − (n mod 8)` of byte
`n div 8`. -/
def Obligations.FrameBitsArriveMostSignificantFirst : Prop :=
  ∀ bits : Nat → Bool, ∀ n < 40,
    (byteAt ((List.range 40).foldl (fun f k => f.append k (bits k)) Frame.zero) (n / 8)).getLsbD (7 - n % 8) = bits n

/-- 42 R131: a step that no reset touches is one operation or computation of a phase (log 1), at its tick cost, and moves the
phase only along the row of the transition table; the operations that stay inside a phase (DRIVE_LOW, RELEASE_HIGH,
DELAY(`T_RELEASE_US`)) and the 0 ticks of SWITCH_TO_INPUT split that phase's row, and an idle step takes one tick (log 15); a
step that a reset touches leaves every register at its reset value at the reset's tick, Idle among them (log 13). -/
def Obligations.TransitionTableIsComplete : Prop :=
  ∀ s t : State, Invariant s → step s = .next t →
    (NoReset s s.now t.now → TransitionRow s t) ∧ (¬ NoReset s s.now t.now → t = s.resetAt t.now ∧ ResetValues t)

/-! ### Invariants and reset -/

/-- 10 R38: the reset state has the value the table gives for every register. -/
def Obligations.ResetStateHasTheTablesValues : Prop :=
  ResetValues State.reset ∧ ∀ (s : State) (t : Nat), ResetValues (s.resetAt t) ∧ (s.resetAt t).now = t

/-- 10 R29, R37: the invariant holds in the reset state. -/
def Obligations.ResetStateMeetsTheInvariant : Prop := Invariant State.reset

/-- 10 R29, R37: every step from a state that meets the invariant leads to a state that meets it; its clauses on `op`, `polled`
and `dlCount` are about the model's own form (logs 5, 7, 17). -/
def Obligations.StepKeepsTheInvariant : Prop := ∀ s t : State, Invariant s → step s = .next t → Invariant t

/-- 10 R38: after any step, if `rst = 1` at the tick reached, every register has its reset value (log 13). -/
def Obligations.ResetHoldsAtEveryTick : Prop := ∀ s t : State, step s = .next t → ResetHolds t

/-- 70 R180, 60 R154(d): reset wins over a step that would pass its tick: the step ends at the first such tick with every
register at its reset value and no error recorded; reset at the step's own tick holds it there for that tick. How a step meets a
reset is log 13. -/
def Obligations.ResetAbandonsTheOperation : Prop :=
  ∀ s t : State, step { s with env := { s.env with rst := [] } } = .next t →
    (∀ r ∈ s.env.rst, s.now < r → r ≤ t.now → (∀ r' ∈ s.env.rst, s.now ≤ r' → r ≤ r') →
      ∃ u, step s = .next u ∧ u.now = r ∧ ResetValues u) ∧
    (s.now ∈ s.env.rst → ∃ u, step s = .next u ∧ u.now = s.now + 1 ∧ ResetValues u) ∧
    (NoReset s s.now t.now → step s = .next { t with env := s.env })

/-- 00 R6, 10 R34, R35, 20 R62: no step changes the parameters or the outside world, and none goes back in time. -/
def Obligations.StepKeepsParametersAndWorld : Prop :=
  ∀ s t : State, step s = .next t → t.cfg = s.cfg ∧ t.env = s.env ∧ s.now ≤ t.now

/-- 60 R150, R104, R158: from a state that meets the invariant the block always has a next state, whatever the line and the host
do; only a family the spec does not specify stops it, and only at Convert (log 12). -/
def Obligations.TheBlockNeverStops : Prop :=
  ∀ s : State, Invariant s → (s.cfg.family = .tenths16 ∨ s.fdPhase ≠ .convert) → ∃ t, step s = .next t

/-- 20 R60, 10 R37(a), 42 R136: the block pulls the line only while it owns it and only in a request pulse, samples it only
while the sensor owns it, and an idle block owns nothing. -/
def Obligations.OwnershipAlternates : Prop :=
  ∀ s : State, Invariant s →
    (s.linePullLow = true → s.fdOwner = .driving ∧ (s.fdPhase = .requestPulseLow ∨ s.fdPhase = .requestPulseRelease)) ∧
    (∀ l T, s.op = some (encode (.measureWhile l T)) → s.fdOwner = .listening ∧ s.linePullLow = false) ∧
    (s.fdPhase = .idle → s.fdOwner = .listening ∧ s.linePullLow = false)

/-- 30 R80, 10 R29: with `done = 1` the ports show one of the three outcomes, with `done = 0` none. -/
def Obligations.ResultPortsShowOneOutcome : Prop :=
  ∀ s : State, Invariant s →
    (s.resDone = true → ∃ o : ReadResult, { s.ports with linePullLow := false } = o.ports) ∧
    (s.resDone = false →
      s.ports = { linePullLow := s.linePullLow, busy := s.resBusy, done := false, valid := false, err := 0b00#2,
                  hum := 0#16, temp := 0#16 })

/-! ### The step and its fetch -/

/-- 00 R9, 30 R77: when the word on the operation interface decodes to `i` and no reset comes, the step takes the word, runs
`exec i`, and lets the Sequencer go on; reset ticks up to its end win (log 13). Which word is run is the model's choice in two
points: withFetchWord places any word, READ included, on that interface (log 5), and a word that does not fit the phase is run
all the same (log 20). -/
def Obligations.StepRunsTheDecodedOperation : Prop :=
  (∀ (s : State) (w : OpWord) (i : Instr), s.env.rstAt s.now = false → s.op = some w → decode w = .ok i →
    step s = onNext s.orReset (onNext (sequencerAfter i) (exec i s.takeOp))) ∧
  (∀ (s : State) (nbits w : Nat) (i : Instr), decodeTableWord nbits w = some i →
    step (s.withFetchWord nbits w) = onNext (s.withFetchWord nbits w).orReset
      (onNext (sequencerAfter i) (exec i { s.withFetchWord nbits w with op := none })))

/-! ### Whole reads -/

/-- 30 R86: as long as the transaction goes on, its `k`-th step has the `k`-th word of the fixed expansion on the operation
interface, and none after the 87th; one word a step, on the model's field `op` (logs 1 and 5). -/
def Obligations.ReadExpandsIntoTheFixedSequence : Prop :=
  ∀ (s : State) (k : Nat), s.resBusy = false →
    (∀ j ≤ k, ∃ t, runSteps j s.acceptRead = .next t ∧ t.resBusy = true) →
    ∀ t, runSteps k s.acceptRead = .next t → t.op = ((readExpansion s.cfg)[k]?).map encode

/-- 42 R133: a read accepted in any state ends, after at most 89 steps, with the outcome and at the tick that the closed form
gives from the parameters and the line from `t2` on, and (R136) in input mode and listening; the spec derives both rules from
R120 to R129. -/
def Obligations.ReadOutcomeIsTheClosedForm : Prop :=
  ∀ s : State, s.resBusy = false → s.cfg.family = .tenths16 →
    NoReset s s.now (readOutcome s.cfg (freeLine s.env) (listenTick s.cfg s.now)).2 →
    ∃ (k : Nat) (t : State), k ≤ 89 ∧ ReachesIdle s.acceptRead k t ∧
      t.ports = (readOutcome s.cfg (freeLine s.env) (listenTick s.cfg s.now)).1.ports ∧
      t.now = (readOutcome s.cfg (freeLine s.env) (listenTick s.cfg s.now)).2 ∧
      t.ldMode = .input ∧ t.fdOwner = .listening

/-- 42 R133 (the source's first testable property) and 60 R152: a line that carries a frame with the right checksum is read as
that frame's humidity and temperature; with a wrong checksum the read ends in ChecksumError and without a reading. -/
def Obligations.AFrameOnTheLineIsRead : Prop :=
  ∀ (s : State) (f : Frame) (a b : Nat) (lo hi : Nat → Nat), s.resBusy = false → s.cfg.family = .tenths16 →
    Carries s.cfg (freeLine s.env) (listenTick s.cfg s.now) a b lo hi f →
    NoReset s s.now (cellStart lo hi (listenTick s.cfg s.now + a + b) 40) →
    ∃ (k : Nat) (t : State), ReachesIdle s.acceptRead k t ∧
      t.now = cellStart lo hi (listenTick s.cfg s.now + a + b) 40 ∧
      ((f.byte0.toNat + f.byte1.toNat + f.byte2.toNat + f.byte3.toNat) % 256 = f.byte4.toNat →
        t.resValid = true ∧ t.resErr = .none ∧ t.resHum.toNat = f.byte0.toNat * 256 + f.byte1.toNat ∧
        t.resTemp.toInt = (if f.byte2.getLsbD 7 then -1 else 1) * ((f.byte2.toNat % 128 * 256 + f.byte3.toNat : Nat) : Int)) ∧
      ((f.byte0.toNat + f.byte1.toNat + f.byte2.toNat + f.byte3.toNat) % 256 ≠ f.byte4.toNat →
        t.resValid = false ∧ t.resErr = .checksumError ∧ t.resHum = 0#16 ∧ t.resTemp = 0#16)

/-- 42 R134: with the default parameters every read ends by `t0 + 25441`, and one that does not end in Timeout by `t0 + 25440`;
a Timeout comes no earlier than `t0 + 20088`; the bound of 89 counts the model's steps (log 1). -/
def Obligations.EveryReadEndsInTime : Prop :=
  ∀ s : State, s.resBusy = false → s.cfg = Params.default → NoReset s s.now (s.now + 25441) →
    ∃ (k : Nat) (t : State), k ≤ 89 ∧ ReachesIdle s.acceptRead k t ∧ t.resDone = true ∧ t.now ≤ s.now + 25441 ∧
      (t.resErr ≠ .timeout → t.now ≤ s.now + 25440) ∧ (t.resErr = .timeout → s.now + 20088 ≤ t.now)

/-- 42 R135: from acceptance on, the ports and the time of every step are the same for two blocks that differ in any register
but `RES.busy`, in what the sensor did before `t2`, and in the free values drawn; an inference the spec marks as its own,
from 10 R36 and R133. -/
def Obligations.ReadsAreIndependentOfThePast : Prop :=
  ∀ s₁ s₂ : State, s₁.resBusy = false → s₂.resBusy = false → s₁.cfg = s₂.cfg → s₁.now = s₂.now →
    s₁.env.cmd = s₂.env.cmd → s₁.env.rst = s₂.env.rst →
    (∀ t, listenTick s₁.cfg s₁.now ≤ t → s₁.env.sensorLow t = s₂.env.sensorLow t) →
    ∀ k, 1 ≤ k → SameView (runSteps k s₁.acceptRead) (runSteps k s₂.acceptRead)

/-- 60 R151, 42 R123: on a line that stays high from `t2` on the read ends with Timeout at `t2 + TO_ACK_HIGH_US + 1`, seven
operations after acceptance (one a step, log 1), and no bit is decoded. -/
def Obligations.NoSensorEndsInTimeout : Prop :=
  ∀ s : State, s.resBusy = false →
    HoldsPast (freeLine s.env) .high (listenTick s.cfg s.now) s.cfg.toAckHighUs.toNat →
    NoReset s s.now (listenTick s.cfg s.now + s.cfg.toAckHighUs.toNat + 1) →
    ∃ t, ReachesIdle s.acceptRead 7 t ∧ t.ports = ReadResult.timeout.ports ∧
      t.now = listenTick s.cfg s.now + s.cfg.toAckHighUs.toNat + 1 ∧ t.fdBitidx = 0#6 ∧ t.fdFrame = Frame.zero

/-- 60 R151, 42 R122: on a line that stays low from `t2` on the read ends with Timeout at `t2 + TO_ACK_LOW_US + 1`, six
operations after acceptance (one a step, log 1). -/
def Obligations.StuckLowLineEndsInTimeout : Prop :=
  ∀ s : State, s.resBusy = false →
    HoldsPast (freeLine s.env) .low (listenTick s.cfg s.now) s.cfg.toAckLowUs.toNat →
    NoReset s s.now (listenTick s.cfg s.now + s.cfg.toAckLowUs.toNat + 1) →
    ∃ t, ReachesIdle s.acceptRead 6 t ∧ t.ports = ReadResult.timeout.ports ∧
      t.now = listenTick s.cfg s.now + s.cfg.toAckLowUs.toNat + 1 ∧ t.fdBitidx = 0#6 ∧ t.fdFrame = Frame.zero

/-- 70 R189: a sensor that answers only `k` ticks after `t2`, with an acknowledgement low of more than `TO_BIT_LOW_US` ticks,
has it timed as the low phase of cell 0: the read ends with Timeout in BitLoop.Low, eight operations after
acceptance (one a step, log 1). -/
def Obligations.LateSensorEndsInTimeout : Prop :=
  ∀ (s : State) (k : Nat), s.resBusy = false → 1 ≤ k → k ≤ s.cfg.toAckHighUs.toNat →
    HoldsFor (freeLine s.env) .high (listenTick s.cfg s.now) k →
    HoldsPast (freeLine s.env) .low (listenTick s.cfg s.now + k) s.cfg.toBitLowUs.toNat →
    NoReset s s.now (listenTick s.cfg s.now + k + s.cfg.toBitLowUs.toNat + 1) →
    ∃ t, ReachesIdle s.acceptRead 8 t ∧ t.ports = ReadResult.timeout.ports ∧
      t.now = listenTick s.cfg s.now + k + s.cfg.toBitLowUs.toNat + 1 ∧ t.fdBitidx = 0#6
end

