-- ==== Sys2Proof/Laws/State.lean ====
section
/-! SUPPORT. What each named update of the state does to each field: one lemma per field per update, true by rfl. -/

namespace Sys2Proof.Machine

/-! ### advance -/

@[simp] theorem advance_ldMode (s : State) (k : Nat) : (s.advance k).ldMode = s.ldMode := rfl
@[simp] theorem advance_fdOwner (s : State) (k : Nat) : (s.advance k).fdOwner = s.fdOwner := rfl
@[simp] theorem advance_ptLevel (s : State) (k : Nat) : (s.advance k).ptLevel = s.ptLevel := rfl
@[simp] theorem advance_ptTimeout (s : State) (k : Nat) : (s.advance k).ptTimeout = s.ptTimeout := rfl
@[simp] theorem advance_ptElapsed (s : State) (k : Nat) : (s.advance k).ptElapsed = s.ptElapsed := rfl
@[simp] theorem advance_ptMeas (s : State) (k : Nat) : (s.advance k).ptMeas = s.ptMeas := rfl
@[simp] theorem advance_dlCount (s : State) (k : Nat) : (s.advance k).dlCount = s.dlCount := rfl
@[simp] theorem advance_fdPhase (s : State) (k : Nat) : (s.advance k).fdPhase = s.fdPhase := rfl
@[simp] theorem advance_fdBitidx (s : State) (k : Nat) : (s.advance k).fdBitidx = s.fdBitidx := rfl
@[simp] theorem advance_fdFrame (s : State) (k : Nat) : (s.advance k).fdFrame = s.fdFrame := rfl
@[simp] theorem advance_resBusy (s : State) (k : Nat) : (s.advance k).resBusy = s.resBusy := rfl
@[simp] theorem advance_resDone (s : State) (k : Nat) : (s.advance k).resDone = s.resDone := rfl
@[simp] theorem advance_resValid (s : State) (k : Nat) : (s.advance k).resValid = s.resValid := rfl
@[simp] theorem advance_resErr (s : State) (k : Nat) : (s.advance k).resErr = s.resErr := rfl
@[simp] theorem advance_resHum (s : State) (k : Nat) : (s.advance k).resHum = s.resHum := rfl
@[simp] theorem advance_resTemp (s : State) (k : Nat) : (s.advance k).resTemp = s.resTemp := rfl
@[simp] theorem advance_cfg (s : State) (k : Nat) : (s.advance k).cfg = s.cfg := rfl
@[simp] theorem advance_now (s : State) (k : Nat) : (s.advance k).now = s.now + k := rfl
@[simp] theorem advance_env (s : State) (k : Nat) : (s.advance k).env = s.env := rfl
@[simp] theorem advance_op (s : State) (k : Nat) : (s.advance k).op = s.op := rfl
@[simp] theorem advance_resp (s : State) (k : Nat) : (s.advance k).resp = s.resp := rfl
@[simp] theorem advance_polled (s : State) (k : Nat) : (s.advance k).polled = s.polled := rfl
@[simp] theorem advance_draws (s : State) (k : Nat) : (s.advance k).draws = s.draws := rfl

/-! ### enter -/

@[simp] theorem enter_ldMode (p : Phase) (s : State) : (s.enter p).ldMode = s.ldMode := rfl
@[simp] theorem enter_fdOwner (p : Phase) (s : State) : (s.enter p).fdOwner = s.fdOwner := rfl
@[simp] theorem enter_ptLevel (p : Phase) (s : State) : (s.enter p).ptLevel = s.ptLevel := rfl
@[simp] theorem enter_ptTimeout (p : Phase) (s : State) : (s.enter p).ptTimeout = s.ptTimeout := rfl
@[simp] theorem enter_ptElapsed (p : Phase) (s : State) : (s.enter p).ptElapsed = s.ptElapsed := rfl
@[simp] theorem enter_ptMeas (p : Phase) (s : State) : (s.enter p).ptMeas = s.ptMeas := rfl
@[simp] theorem enter_dlCount (p : Phase) (s : State) : (s.enter p).dlCount = s.dlCount := rfl
@[simp] theorem enter_fdPhase (p : Phase) (s : State) : (s.enter p).fdPhase = p := rfl
@[simp] theorem enter_fdBitidx (p : Phase) (s : State) : (s.enter p).fdBitidx = s.fdBitidx := rfl
@[simp] theorem enter_fdFrame (p : Phase) (s : State) : (s.enter p).fdFrame = s.fdFrame := rfl
@[simp] theorem enter_resBusy (p : Phase) (s : State) : (s.enter p).resBusy = s.resBusy := rfl
@[simp] theorem enter_resDone (p : Phase) (s : State) : (s.enter p).resDone = s.resDone := rfl
@[simp] theorem enter_resValid (p : Phase) (s : State) : (s.enter p).resValid = s.resValid := rfl
@[simp] theorem enter_resErr (p : Phase) (s : State) : (s.enter p).resErr = s.resErr := rfl
@[simp] theorem enter_resHum (p : Phase) (s : State) : (s.enter p).resHum = s.resHum := rfl
@[simp] theorem enter_resTemp (p : Phase) (s : State) : (s.enter p).resTemp = s.resTemp := rfl
@[simp] theorem enter_cfg (p : Phase) (s : State) : (s.enter p).cfg = s.cfg := rfl
@[simp] theorem enter_now (p : Phase) (s : State) : (s.enter p).now = s.now := rfl
@[simp] theorem enter_env (p : Phase) (s : State) : (s.enter p).env = s.env := rfl
@[simp] theorem enter_op (p : Phase) (s : State) : (s.enter p).op = (firstOp s.cfg p).map encode := rfl
@[simp] theorem enter_resp (p : Phase) (s : State) : (s.enter p).resp = s.resp := rfl
@[simp] theorem enter_polled (p : Phase) (s : State) : (s.enter p).polled = s.polled := rfl
@[simp] theorem enter_draws (p : Phase) (s : State) : (s.enter p).draws = s.draws := rfl

/-! ### issue -/

@[simp] theorem issue_ldMode (i : Instr) (s : State) : (s.issue i).ldMode = s.ldMode := rfl
@[simp] theorem issue_fdOwner (i : Instr) (s : State) : (s.issue i).fdOwner = s.fdOwner := rfl
@[simp] theorem issue_ptLevel (i : Instr) (s : State) : (s.issue i).ptLevel = s.ptLevel := rfl
@[simp] theorem issue_ptTimeout (i : Instr) (s : State) : (s.issue i).ptTimeout = s.ptTimeout := rfl
@[simp] theorem issue_ptElapsed (i : Instr) (s : State) : (s.issue i).ptElapsed = s.ptElapsed := rfl
@[simp] theorem issue_ptMeas (i : Instr) (s : State) : (s.issue i).ptMeas = s.ptMeas := rfl
@[simp] theorem issue_dlCount (i : Instr) (s : State) : (s.issue i).dlCount = s.dlCount := rfl
@[simp] theorem issue_fdPhase (i : Instr) (s : State) : (s.issue i).fdPhase = s.fdPhase := rfl
@[simp] theorem issue_fdBitidx (i : Instr) (s : State) : (s.issue i).fdBitidx = s.fdBitidx := rfl
@[simp] theorem issue_fdFrame (i : Instr) (s : State) : (s.issue i).fdFrame = s.fdFrame := rfl
@[simp] theorem issue_resBusy (i : Instr) (s : State) : (s.issue i).resBusy = s.resBusy := rfl
@[simp] theorem issue_resDone (i : Instr) (s : State) : (s.issue i).resDone = s.resDone := rfl
@[simp] theorem issue_resValid (i : Instr) (s : State) : (s.issue i).resValid = s.resValid := rfl
@[simp] theorem issue_resErr (i : Instr) (s : State) : (s.issue i).resErr = s.resErr := rfl
@[simp] theorem issue_resHum (i : Instr) (s : State) : (s.issue i).resHum = s.resHum := rfl
@[simp] theorem issue_resTemp (i : Instr) (s : State) : (s.issue i).resTemp = s.resTemp := rfl
@[simp] theorem issue_cfg (i : Instr) (s : State) : (s.issue i).cfg = s.cfg := rfl
@[simp] theorem issue_now (i : Instr) (s : State) : (s.issue i).now = s.now := rfl
@[simp] theorem issue_env (i : Instr) (s : State) : (s.issue i).env = s.env := rfl
@[simp] theorem issue_op (i : Instr) (s : State) : (s.issue i).op = some (encode i) := rfl
@[simp] theorem issue_resp (i : Instr) (s : State) : (s.issue i).resp = s.resp := rfl
@[simp] theorem issue_polled (i : Instr) (s : State) : (s.issue i).polled = s.polled := rfl
@[simp] theorem issue_draws (i : Instr) (s : State) : (s.issue i).draws = s.draws := rfl

/-! ### takeOp -/

@[simp] theorem takeOp_ldMode (s : State) : s.takeOp.ldMode = s.ldMode := rfl
@[simp] theorem takeOp_fdOwner (s : State) : s.takeOp.fdOwner = s.fdOwner := rfl
@[simp] theorem takeOp_ptLevel (s : State) : s.takeOp.ptLevel = s.ptLevel := rfl
@[simp] theorem takeOp_ptTimeout (s : State) : s.takeOp.ptTimeout = s.ptTimeout := rfl
@[simp] theorem takeOp_ptElapsed (s : State) : s.takeOp.ptElapsed = s.ptElapsed := rfl
@[simp] theorem takeOp_ptMeas (s : State) : s.takeOp.ptMeas = s.ptMeas := rfl
@[simp] theorem takeOp_dlCount (s : State) : s.takeOp.dlCount = s.dlCount := rfl
@[simp] theorem takeOp_fdPhase (s : State) : s.takeOp.fdPhase = s.fdPhase := rfl
@[simp] theorem takeOp_fdBitidx (s : State) : s.takeOp.fdBitidx = s.fdBitidx := rfl
@[simp] theorem takeOp_fdFrame (s : State) : s.takeOp.fdFrame = s.fdFrame := rfl
@[simp] theorem takeOp_resBusy (s : State) : s.takeOp.resBusy = s.resBusy := rfl
@[simp] theorem takeOp_resDone (s : State) : s.takeOp.resDone = s.resDone := rfl
@[simp] theorem takeOp_resValid (s : State) : s.takeOp.resValid = s.resValid := rfl
@[simp] theorem takeOp_resErr (s : State) : s.takeOp.resErr = s.resErr := rfl
@[simp] theorem takeOp_resHum (s : State) : s.takeOp.resHum = s.resHum := rfl
@[simp] theorem takeOp_resTemp (s : State) : s.takeOp.resTemp = s.resTemp := rfl
@[simp] theorem takeOp_cfg (s : State) : s.takeOp.cfg = s.cfg := rfl
@[simp] theorem takeOp_now (s : State) : s.takeOp.now = s.now := rfl
@[simp] theorem takeOp_env (s : State) : s.takeOp.env = s.env := rfl
@[simp] theorem takeOp_op (s : State) : s.takeOp.op = none := rfl
@[simp] theorem takeOp_resp (s : State) : s.takeOp.resp = s.resp := rfl
@[simp] theorem takeOp_polled (s : State) : s.takeOp.polled = s.polled := rfl
@[simp] theorem takeOp_draws (s : State) : s.takeOp.draws = s.draws := rfl

/-! ### acceptRead -/

@[simp] theorem acceptRead_ldMode (s : State) : s.acceptRead.ldMode = s.ldMode := rfl
@[simp] theorem acceptRead_fdOwner (s : State) : s.acceptRead.fdOwner = s.fdOwner := rfl
@[simp] theorem acceptRead_ptLevel (s : State) : s.acceptRead.ptLevel = s.ptLevel := rfl
@[simp] theorem acceptRead_ptTimeout (s : State) : s.acceptRead.ptTimeout = s.ptTimeout := rfl
@[simp] theorem acceptRead_ptElapsed (s : State) : s.acceptRead.ptElapsed = s.ptElapsed := rfl
@[simp] theorem acceptRead_ptMeas (s : State) : s.acceptRead.ptMeas = s.ptMeas := rfl
@[simp] theorem acceptRead_dlCount (s : State) : s.acceptRead.dlCount = s.dlCount := rfl
@[simp] theorem acceptRead_fdPhase (s : State) : s.acceptRead.fdPhase = .requestPulseLow := rfl
@[simp] theorem acceptRead_fdBitidx (s : State) : s.acceptRead.fdBitidx = 0#6 := rfl
@[simp] theorem acceptRead_fdFrame (s : State) : s.acceptRead.fdFrame = Frame.zero := rfl
@[simp] theorem acceptRead_resBusy (s : State) : s.acceptRead.resBusy = true := rfl
@[simp] theorem acceptRead_resDone (s : State) : s.acceptRead.resDone = false := rfl
@[simp] theorem acceptRead_resValid (s : State) : s.acceptRead.resValid = false := rfl
@[simp] theorem acceptRead_resErr (s : State) : s.acceptRead.resErr = .none := rfl
@[simp] theorem acceptRead_resHum (s : State) : s.acceptRead.resHum = 0#16 := rfl
@[simp] theorem acceptRead_resTemp (s : State) : s.acceptRead.resTemp = 0#16 := rfl
@[simp] theorem acceptRead_cfg (s : State) : s.acceptRead.cfg = s.cfg := rfl
@[simp] theorem acceptRead_now (s : State) : s.acceptRead.now = s.now := rfl
@[simp] theorem acceptRead_env (s : State) : s.acceptRead.env = s.env := rfl
@[simp] theorem acceptRead_op (s : State) : s.acceptRead.op = some (encode .driveLow) := rfl
@[simp] theorem acceptRead_resp (s : State) : s.acceptRead.resp = s.resp := rfl
@[simp] theorem acceptRead_polled (s : State) : s.acceptRead.polled = true := rfl
@[simp] theorem acceptRead_draws (s : State) : s.acceptRead.draws = s.draws := rfl

/-! ### abort -/

@[simp] theorem abort_ldMode (k : ErrKind) (s : State) : (s.abort k).ldMode = s.ldMode := rfl
@[simp] theorem abort_fdOwner (k : ErrKind) (s : State) : (s.abort k).fdOwner = s.fdOwner := rfl
@[simp] theorem abort_ptLevel (k : ErrKind) (s : State) : (s.abort k).ptLevel = s.ptLevel := rfl
@[simp] theorem abort_ptTimeout (k : ErrKind) (s : State) : (s.abort k).ptTimeout = s.ptTimeout := rfl
@[simp] theorem abort_ptElapsed (k : ErrKind) (s : State) : (s.abort k).ptElapsed = s.ptElapsed := rfl
@[simp] theorem abort_ptMeas (k : ErrKind) (s : State) : (s.abort k).ptMeas = s.ptMeas := rfl
@[simp] theorem abort_dlCount (k : ErrKind) (s : State) : (s.abort k).dlCount = s.dlCount := rfl
@[simp] theorem abort_fdPhase (k : ErrKind) (s : State) : (s.abort k).fdPhase = .idle := rfl
@[simp] theorem abort_fdBitidx (k : ErrKind) (s : State) : (s.abort k).fdBitidx = s.fdBitidx := rfl
@[simp] theorem abort_fdFrame (k : ErrKind) (s : State) : (s.abort k).fdFrame = s.fdFrame := rfl
@[simp] theorem abort_resBusy (k : ErrKind) (s : State) : (s.abort k).resBusy = false := rfl
@[simp] theorem abort_resDone (k : ErrKind) (s : State) : (s.abort k).resDone = true := rfl
@[simp] theorem abort_resValid (k : ErrKind) (s : State) : (s.abort k).resValid = s.resValid := rfl
@[simp] theorem abort_resErr (k : ErrKind) (s : State) : (s.abort k).resErr = k := rfl
@[simp] theorem abort_resHum (k : ErrKind) (s : State) : (s.abort k).resHum = s.resHum := rfl
@[simp] theorem abort_resTemp (k : ErrKind) (s : State) : (s.abort k).resTemp = s.resTemp := rfl
@[simp] theorem abort_cfg (k : ErrKind) (s : State) : (s.abort k).cfg = s.cfg := rfl
@[simp] theorem abort_now (k : ErrKind) (s : State) : (s.abort k).now = s.now := rfl
@[simp] theorem abort_env (k : ErrKind) (s : State) : (s.abort k).env = s.env := rfl
@[simp] theorem abort_op (k : ErrKind) (s : State) : (s.abort k).op = none := rfl
@[simp] theorem abort_resp (k : ErrKind) (s : State) : (s.abort k).resp = s.resp := rfl
@[simp] theorem abort_polled (k : ErrKind) (s : State) : (s.abort k).polled = s.polled := rfl
@[simp] theorem abort_draws (k : ErrKind) (s : State) : (s.abort k).draws = s.draws := rfl

/-! ### returnOk -/

@[simp] theorem returnOk_ldMode (h t : BitVec 16) (s : State) : (s.returnOk h t).ldMode = s.ldMode := rfl
@[simp] theorem returnOk_fdOwner (h t : BitVec 16) (s : State) : (s.returnOk h t).fdOwner = s.fdOwner := rfl
@[simp] theorem returnOk_ptLevel (h t : BitVec 16) (s : State) : (s.returnOk h t).ptLevel = s.ptLevel := rfl
@[simp] theorem returnOk_ptTimeout (h t : BitVec 16) (s : State) : (s.returnOk h t).ptTimeout = s.ptTimeout := rfl
@[simp] theorem returnOk_ptElapsed (h t : BitVec 16) (s : State) : (s.returnOk h t).ptElapsed = s.ptElapsed := rfl
@[simp] theorem returnOk_ptMeas (h t : BitVec 16) (s : State) : (s.returnOk h t).ptMeas = s.ptMeas := rfl
@[simp] theorem returnOk_dlCount (h t : BitVec 16) (s : State) : (s.returnOk h t).dlCount = s.dlCount := rfl
@[simp] theorem returnOk_fdPhase (h t : BitVec 16) (s : State) : (s.returnOk h t).fdPhase = .idle := rfl
@[simp] theorem returnOk_fdBitidx (h t : BitVec 16) (s : State) : (s.returnOk h t).fdBitidx = s.fdBitidx := rfl
@[simp] theorem returnOk_fdFrame (h t : BitVec 16) (s : State) : (s.returnOk h t).fdFrame = s.fdFrame := rfl
@[simp] theorem returnOk_resBusy (h t : BitVec 16) (s : State) : (s.returnOk h t).resBusy = false := rfl
@[simp] theorem returnOk_resDone (h t : BitVec 16) (s : State) : (s.returnOk h t).resDone = true := rfl
@[simp] theorem returnOk_resValid (h t : BitVec 16) (s : State) : (s.returnOk h t).resValid = true := rfl
@[simp] theorem returnOk_resErr (h t : BitVec 16) (s : State) : (s.returnOk h t).resErr = s.resErr := rfl
@[simp] theorem returnOk_resHum (h t : BitVec 16) (s : State) : (s.returnOk h t).resHum = h := rfl
@[simp] theorem returnOk_resTemp (h t : BitVec 16) (s : State) : (s.returnOk h t).resTemp = t := rfl
@[simp] theorem returnOk_cfg (h t : BitVec 16) (s : State) : (s.returnOk h t).cfg = s.cfg := rfl
@[simp] theorem returnOk_now (h t : BitVec 16) (s : State) : (s.returnOk h t).now = s.now := rfl
@[simp] theorem returnOk_env (h t : BitVec 16) (s : State) : (s.returnOk h t).env = s.env := rfl
@[simp] theorem returnOk_op (h t : BitVec 16) (s : State) : (s.returnOk h t).op = none := rfl
@[simp] theorem returnOk_resp (h t : BitVec 16) (s : State) : (s.returnOk h t).resp = s.resp := rfl
@[simp] theorem returnOk_polled (h t : BitVec 16) (s : State) : (s.returnOk h t).polled = s.polled := rfl
@[simp] theorem returnOk_draws (h t : BitVec 16) (s : State) : (s.returnOk h t).draws = s.draws := rfl

/-! ### resetAt -/

@[simp] theorem resetAt_ldMode (t : Nat) (s : State) : (s.resetAt t).ldMode = .input := rfl
@[simp] theorem resetAt_fdOwner (t : Nat) (s : State) : (s.resetAt t).fdOwner = .listening := rfl
@[simp] theorem resetAt_ptLevel (t : Nat) (s : State) : (s.resetAt t).ptLevel = .low := rfl
@[simp] theorem resetAt_ptTimeout (t : Nat) (s : State) : (s.resetAt t).ptTimeout = 0#32 := rfl
@[simp] theorem resetAt_ptElapsed (t : Nat) (s : State) : (s.resetAt t).ptElapsed = 0#33 := rfl
@[simp] theorem resetAt_ptMeas (t : Nat) (s : State) : (s.resetAt t).ptMeas = { timedOut := false, durationUs := 0#32 } := rfl
@[simp] theorem resetAt_dlCount (t : Nat) (s : State) : (s.resetAt t).dlCount = 0#32 := rfl
@[simp] theorem resetAt_fdPhase (t : Nat) (s : State) : (s.resetAt t).fdPhase = .idle := rfl
@[simp] theorem resetAt_fdBitidx (t : Nat) (s : State) : (s.resetAt t).fdBitidx = 0#6 := rfl
@[simp] theorem resetAt_fdFrame (t : Nat) (s : State) : (s.resetAt t).fdFrame = Frame.zero := rfl
@[simp] theorem resetAt_resBusy (t : Nat) (s : State) : (s.resetAt t).resBusy = false := rfl
@[simp] theorem resetAt_resDone (t : Nat) (s : State) : (s.resetAt t).resDone = false := rfl
@[simp] theorem resetAt_resValid (t : Nat) (s : State) : (s.resetAt t).resValid = false := rfl
@[simp] theorem resetAt_resErr (t : Nat) (s : State) : (s.resetAt t).resErr = .none := rfl
@[simp] theorem resetAt_resHum (t : Nat) (s : State) : (s.resetAt t).resHum = 0#16 := rfl
@[simp] theorem resetAt_resTemp (t : Nat) (s : State) : (s.resetAt t).resTemp = 0#16 := rfl
@[simp] theorem resetAt_cfg (t : Nat) (s : State) : (s.resetAt t).cfg = s.cfg := rfl
@[simp] theorem resetAt_now (t : Nat) (s : State) : (s.resetAt t).now = t := rfl
@[simp] theorem resetAt_env (t : Nat) (s : State) : (s.resetAt t).env = s.env := rfl
@[simp] theorem resetAt_op (t : Nat) (s : State) : (s.resetAt t).op = none := rfl
@[simp] theorem resetAt_resp (t : Nat) (s : State) : (s.resetAt t).resp = .none := rfl
@[simp] theorem resetAt_polled (t : Nat) (s : State) : (s.resetAt t).polled = false := rfl
@[simp] theorem resetAt_draws (t : Nat) (s : State) : (s.resetAt t).draws = s.draws := rfl

/-! ### idleTick -/

@[simp] theorem idleTick_ldMode (s : State) : s.idleTick.ldMode = s.ldMode := rfl
@[simp] theorem idleTick_fdOwner (s : State) : s.idleTick.fdOwner = s.fdOwner := rfl
@[simp] theorem idleTick_ptLevel (s : State) : s.idleTick.ptLevel = s.ptLevel := rfl
@[simp] theorem idleTick_ptTimeout (s : State) : s.idleTick.ptTimeout = s.ptTimeout := rfl
@[simp] theorem idleTick_ptElapsed (s : State) : s.idleTick.ptElapsed = s.ptElapsed := rfl
@[simp] theorem idleTick_ptMeas (s : State) : s.idleTick.ptMeas = s.ptMeas := rfl
@[simp] theorem idleTick_dlCount (s : State) : s.idleTick.dlCount = s.dlCount := rfl
@[simp] theorem idleTick_fdPhase (s : State) : s.idleTick.fdPhase = s.fdPhase := rfl
@[simp] theorem idleTick_fdBitidx (s : State) : s.idleTick.fdBitidx = s.fdBitidx := rfl
@[simp] theorem idleTick_fdFrame (s : State) : s.idleTick.fdFrame = s.fdFrame := rfl
@[simp] theorem idleTick_resBusy (s : State) : s.idleTick.resBusy = s.resBusy := rfl
@[simp] theorem idleTick_resDone (s : State) : s.idleTick.resDone = s.resDone := rfl
@[simp] theorem idleTick_resValid (s : State) : s.idleTick.resValid = s.resValid := rfl
@[simp] theorem idleTick_resErr (s : State) : s.idleTick.resErr = s.resErr := rfl
@[simp] theorem idleTick_resHum (s : State) : s.idleTick.resHum = s.resHum := rfl
@[simp] theorem idleTick_resTemp (s : State) : s.idleTick.resTemp = s.resTemp := rfl
@[simp] theorem idleTick_cfg (s : State) : s.idleTick.cfg = s.cfg := rfl
@[simp] theorem idleTick_now (s : State) : s.idleTick.now = s.now + 1 := rfl
@[simp] theorem idleTick_env (s : State) : s.idleTick.env = s.env := rfl
@[simp] theorem idleTick_op (s : State) : s.idleTick.op = s.op := rfl
@[simp] theorem idleTick_resp (s : State) : s.idleTick.resp = s.resp := rfl
@[simp] theorem idleTick_polled (s : State) : s.idleTick.polled = false := rfl
@[simp] theorem idleTick_draws (s : State) : s.idleTick.draws = s.draws := rfl

/-! ### finishMeasurement -/

@[simp] theorem finishMeasurement_ldMode (l : Level) (t : U32) (m : Nat × Bool) (s : State) : (finishMeasurement l t m s).ldMode = s.ldMode := rfl
@[simp] theorem finishMeasurement_fdOwner (l : Level) (t : U32) (m : Nat × Bool) (s : State) : (finishMeasurement l t m s).fdOwner = s.fdOwner := rfl
@[simp] theorem finishMeasurement_ptLevel (l : Level) (t : U32) (m : Nat × Bool) (s : State) : (finishMeasurement l t m s).ptLevel = l := rfl
@[simp] theorem finishMeasurement_ptTimeout (l : Level) (t : U32) (m : Nat × Bool) (s : State) : (finishMeasurement l t m s).ptTimeout = t := rfl
@[simp] theorem finishMeasurement_ptElapsed (l : Level) (t : U32) (m : Nat × Bool) (s : State) : (finishMeasurement l t m s).ptElapsed = BitVec.ofNat 33 m.1 := rfl
@[simp] theorem finishMeasurement_ptMeas (l : Level) (t : U32) (m : Nat × Bool) (s : State) : (finishMeasurement l t m s).ptMeas = measurementOf s m := rfl
@[simp] theorem finishMeasurement_dlCount (l : Level) (t : U32) (m : Nat × Bool) (s : State) : (finishMeasurement l t m s).dlCount = s.dlCount := rfl
@[simp] theorem finishMeasurement_fdPhase (l : Level) (t : U32) (m : Nat × Bool) (s : State) : (finishMeasurement l t m s).fdPhase = s.fdPhase := rfl
@[simp] theorem finishMeasurement_fdBitidx (l : Level) (t : U32) (m : Nat × Bool) (s : State) : (finishMeasurement l t m s).fdBitidx = s.fdBitidx := rfl
@[simp] theorem finishMeasurement_fdFrame (l : Level) (t : U32) (m : Nat × Bool) (s : State) : (finishMeasurement l t m s).fdFrame = s.fdFrame := rfl
@[simp] theorem finishMeasurement_resBusy (l : Level) (t : U32) (m : Nat × Bool) (s : State) : (finishMeasurement l t m s).resBusy = s.resBusy := rfl
@[simp] theorem finishMeasurement_resDone (l : Level) (t : U32) (m : Nat × Bool) (s : State) : (finishMeasurement l t m s).resDone = s.resDone := rfl
@[simp] theorem finishMeasurement_resValid (l : Level) (t : U32) (m : Nat × Bool) (s : State) : (finishMeasurement l t m s).resValid = s.resValid := rfl
@[simp] theorem finishMeasurement_resErr (l : Level) (t : U32) (m : Nat × Bool) (s : State) : (finishMeasurement l t m s).resErr = s.resErr := rfl
@[simp] theorem finishMeasurement_resHum (l : Level) (t : U32) (m : Nat × Bool) (s : State) : (finishMeasurement l t m s).resHum = s.resHum := rfl
@[simp] theorem finishMeasurement_resTemp (l : Level) (t : U32) (m : Nat × Bool) (s : State) : (finishMeasurement l t m s).resTemp = s.resTemp := rfl
@[simp] theorem finishMeasurement_cfg (l : Level) (t : U32) (m : Nat × Bool) (s : State) : (finishMeasurement l t m s).cfg = s.cfg := rfl
@[simp] theorem finishMeasurement_now (l : Level) (t : U32) (m : Nat × Bool) (s : State) : (finishMeasurement l t m s).now = s.now + m.1 := rfl
@[simp] theorem finishMeasurement_env (l : Level) (t : U32) (m : Nat × Bool) (s : State) : (finishMeasurement l t m s).env = s.env := rfl
@[simp] theorem finishMeasurement_op (l : Level) (t : U32) (m : Nat × Bool) (s : State) : (finishMeasurement l t m s).op = s.op := rfl
@[simp] theorem finishMeasurement_resp (l : Level) (t : U32) (m : Nat × Bool) (s : State) : (finishMeasurement l t m s).resp = .measurement (measurementOf s m).toBits := rfl
@[simp] theorem finishMeasurement_polled (l : Level) (t : U32) (m : Nat × Bool) (s : State) : (finishMeasurement l t m s).polled = s.polled := rfl
@[simp] theorem finishMeasurement_draws (l : Level) (t : U32) (m : Nat × Bool) (s : State) : (finishMeasurement l t m s).draws = (if m.2 then s.draws + 1 else s.draws) := rfl

end Sys2Proof.Machine
end

