-- ==== Sys2Proof/Laws/Line.lean ====
section
/-! SUPPORT. What the line, the oracle and the search for a change of level do, said once: callers cite these and never unfold them. -/

namespace Sys2Proof.Machine

/-! ### The line (20 R51) -/

@[simp] theorem lineLevel_outLow (b : Bool) : lineLevel .outLow b = .low := by simp [lineLevel]

@[simp] theorem lineLevel_input (b : Bool) : lineLevel .input b = if b then .low else .high := by
  cases b <;> simp [lineLevel]

@[simp] theorem lineLevel_outHigh (b : Bool) : lineLevel .outHigh b = if b then .low else .high := by
  cases b <;> simp [lineLevel]

/-- The line depends on the mode and on the oracle at that tick, and on nothing else of the state. -/
theorem lineAt_congr {s t : State} (k : Nat) (hm : s.ldMode = t.ldMode)
    (he : s.env.sensorLow k = t.env.sensorLow k) : s.lineAt k = t.lineAt k := by
  simp [State.lineAt, hm, he]

/-! ### The oracle as a list of intervals (10 R35) -/

theorem covers_iff (p : Pull) (t : Nat) :
    p.covers t = true ↔ p.start ≤ t ∧ ∀ e, p.stop = some e → t < e := by
  cases h : p.stop <;> simp [Pull.covers, h]

/-- An interval covers a tick and not its neighbour only at one of its two ends. -/
theorem edge_of_covers_ne {p : Pull} {t : Nat} (h : p.covers t ≠ p.covers (t + 1)) : t + 1 ∈ p.edges := by
  by_contra hc
  refine h ?_
  rw [Bool.eq_iff_iff, covers_iff, covers_iff]
  cases hs : p.stop <;> simp [Pull.edges, hs] at hc ⊢ <;> omega

/-- `sensor_low` changes from one tick to the next only at the end of an interval. -/
theorem edge_of_sensorLow_ne {e : Env} {t : Nat} (h : e.sensorLow t ≠ e.sensorLow (t + 1)) : t + 1 ∈ e.edges := by
  by_contra hc
  have hp : ∀ p ∈ e.sensor, p.covers t = p.covers (t + 1) := fun p hp => by
    by_contra hne
    exact hc (List.mem_flatMap.mpr ⟨p, hp, edge_of_covers_ne hne⟩)
  exact h (by
    rw [Bool.eq_iff_iff]
    simp only [Env.sensorLow, List.any_eq_true]
    exact ⟨fun ⟨p, m, c⟩ => ⟨p, m, (hp p m) ▸ c⟩, fun ⟨p, m, c⟩ => ⟨p, m, (hp p m).symm ▸ c⟩⟩)

/-- Any behaviour of a sensor over any finite stretch of time is the behaviour of some list of intervals, so a statement about
every list loses no run (10 R35, log 2). -/
theorem exists_sensor_agreeing (f : Nat → Bool) (n : Nat) :
    ∃ ps : List Pull, ∀ (c : List (Nat × OpWord)) (r : List Nat), ∀ t < n,
      (Env.sensorLow { sensor := ps, cmd := c, rst := r } t) = f t := by
  refine ⟨((List.range n).filter f).map (fun t => { start := t, stop := some (t + 1) }), fun c r t ht => ?_⟩
  rw [Bool.eq_iff_iff]
  simp only [Env.sensorLow, List.any_eq_true, List.mem_map, List.mem_filter, List.mem_range]
  constructor
  · rintro ⟨p, ⟨k, ⟨_, hk⟩, rfl⟩, hc⟩
    have := (covers_iff _ _).mp hc
    have h2 := this.2 (k + 1) rfl
    have : k = t := by have := this.1; simp at this; omega
    exact this ▸ hk
  · intro hf
    exact ⟨_, ⟨t, ⟨ht, hf⟩, rfl⟩, (covers_iff _ _).mpr ⟨Nat.le_refl _, by simp⟩⟩

/-! ### The search for a change of level (41 R111) -/

theorem mem_lineEdges {s : State} {t : Nat} :
    t ∈ s.lineEdges ↔ t = s.now ∨ (t ∈ s.env.edges ∧ s.now < t) := by
  simp [State.lineEdges]

/-- The first tick at which the level differs is one of the ticks looked at. -/
theorem mem_lineEdges_of_first {s : State} {l : Level} {d : Nat} (hd : s.lineAt (s.now + d) ≠ l)
    (hlt : ∀ k < d, s.lineAt (s.now + k) = l) : s.now + d ∈ s.lineEdges := by
  rw [mem_lineEdges]
  cases d with
  | zero => simp
  | succ d =>
    refine .inr ⟨edge_of_sensorLow_ne (t := s.now + d) fun h => hd ?_, by omega⟩
    rw [← hlt d (by omega)]
    simp only [State.lineAt, ← Nat.add_assoc, h]

theorem lineEdges_le {s : State} {t : Nat} (h : t ∈ s.lineEdges) : s.now ≤ t := by
  rw [mem_lineEdges] at h; omega

theorem changeAfter_some {s : State} {l : Level} {d : Nat} :
    s.changeAfter l = some d ↔ s.lineAt (s.now + d) ≠ l ∧ ∀ k < d, s.lineAt (s.now + k) = l := by
  simp only [State.changeAfter, Option.map_eq_some_iff, List.min?_eq_some_iff, List.mem_filter, decide_eq_true_eq]
  constructor
  · rintro ⟨t, ⟨⟨hm, hne⟩, hmin⟩, rfl⟩
    have hle := lineEdges_le hm
    have ht : s.now + (t - s.now) = t := by omega
    rw [ht]
    refine ⟨hne, fun k => ?_⟩
    induction k using Nat.strong_induction_on with
    | _ k ih =>
      intro hk
      by_contra hc
      have := hmin (s.now + k) ⟨mem_lineEdges_of_first hc fun j hj => ih j hj (by omega), hc⟩
      omega
  · rintro ⟨hne, hlt⟩
    refine ⟨s.now + d, ⟨⟨mem_lineEdges_of_first hne hlt, hne⟩, fun b ⟨hb, hbne⟩ => ?_⟩, by omega⟩
    have hle := lineEdges_le hb
    by_contra hc
    exact hbne (by have := hlt (b - s.now) (by omega); rwa [show s.now + (b - s.now) = b by omega] at this)

theorem changeAfter_none {s : State} {l : Level} :
    s.changeAfter l = none ↔ ∀ k, s.lineAt (s.now + k) = l := by
  constructor
  · intro h k
    induction k using Nat.strong_induction_on with
    | _ k ih =>
      by_contra hc
      rw [changeAfter_some.mpr ⟨hc, ih⟩] at h
      cases h
  · intro h
    cases hd : s.changeAfter l with
    | none => rfl
    | some d => exact absurd (h d) (changeAfter_some.mp hd).1

/-- Everything a measurement can return (41 R111): the first change within the timeout, or a time-out with the line at
`level` on all of the `timeout + 1` ticks. -/
theorem measured_cases (s : State) (l : Level) (T : U32) :
    (∃ d, measured s l T = (d, false) ∧ d ≤ T.toNat ∧ s.lineAt (s.now + d) ≠ l ∧ ∀ k < d, s.lineAt (s.now + k) = l) ∨
    (measured s l T = (T.toNat + 1, true) ∧ ∀ k ≤ T.toNat, s.lineAt (s.now + k) = l) := by
  unfold measured
  cases h : s.changeAfter l with
  | none => exact .inr ⟨rfl, fun k _ => changeAfter_none.mp h k⟩
  | some d =>
    have hd := changeAfter_some.mp h
    by_cases hle : d ≤ T.toNat
    · exact .inl ⟨d, by simp [hle], hle, hd⟩
    · exact .inr ⟨by simp [hle], fun k hk => hd.2 k (by omega)⟩

/-- A change within the timeout is measured. -/
theorem measured_of_change {s : State} {l : Level} {T : U32} {d : Nat} (hle : d ≤ T.toNat)
    (hne : s.lineAt (s.now + d) ≠ l) (hlt : ∀ k < d, s.lineAt (s.now + k) = l) : measured s l T = (d, false) := by
  unfold measured
  rw [changeAfter_some.mpr ⟨hne, hlt⟩]
  simp [hle]

/-- A line that stays at `level` past the timeout times out. -/
theorem measured_of_stays {s : State} {l : Level} {T : U32} (h : ∀ k ≤ T.toNat, s.lineAt (s.now + k) = l) :
    measured s l T = (T.toNat + 1, true) := by
  obtain ⟨d, -, hle, hne, -⟩ | ⟨hm, -⟩ := measured_cases s l T
  · exact absurd (h d hle) hne
  · exact hm

/-- A measurement reads the line and nothing else of the state. -/
theorem measured_congr {s t : State} {l : Level} {T : U32} (hn : s.now = t.now)
    (hl : ∀ k ≥ s.now, s.lineAt k = t.lineAt k) : measured s l T = measured t l T := by
  obtain ⟨d, hm, hle, hne, hlt⟩ | ⟨hm, hst⟩ := measured_cases s l T
  · rw [hm, measured_of_change hle (by rwa [← hn, ← hl _ (by omega)])
      (fun k hk => by rw [← hn, ← hl _ (by omega)]; exact hlt k hk)]
  · rw [hm, measured_of_stays fun k hk => by rw [← hn, ← hl _ (by omega)]; exact hst k hk]

/-! ### Reset (10 R38, 70 R180) -/

theorem rstAt_iff {e : Env} {t : Nat} : e.rstAt t = true ↔ t ∈ e.rst := by simp [Env.rstAt]

theorem rstWithin_some {e : Env} {a b r : Nat} (h : e.rstWithin a b = some r) : r ∈ e.rst ∧ a < r ∧ r ≤ b := by
  have := List.min?_mem h
  simpa using this

/-- The tick found is the first one. -/
theorem rstWithin_first {e : Env} {a b r : Nat} (h : e.rstWithin a b = some r) :
    ∀ r' ∈ e.rst, a < r' → r' < r → False := fun r' hm ha hr => by
  have hb := (rstWithin_some h).2.2
  have := (List.min?_eq_some_iff.mp h).2 r' (by simp [hm, ha]; omega)
  omega

theorem rstWithin_none {e : Env} {a b : Nat} :
    e.rstWithin a b = none ↔ ∀ r ∈ e.rst, a < r → b < r := by
  simp [Env.rstWithin]

@[simp] theorem rstWithin_self (e : Env) (a : Nat) : e.rstWithin a a = none :=
  rstWithin_none.mpr fun _ _ h => h

/-- Everything `orReset` can do: the operation's own result, or reset at a tick inside the operation. -/
theorem orReset_cases (s t : State) :
    (s.orReset t = t ∧ ∀ r ∈ s.env.rst, s.now < r → t.now < r) ∨
    (∃ r ∈ s.env.rst, s.now < r ∧ r ≤ t.now ∧ s.orReset t = s.resetAt r ∧
      ∀ r' ∈ s.env.rst, s.now < r' → r ≤ r') := by
  unfold State.orReset
  cases h : s.env.rstWithin s.now t.now with
  | none => exact .inl ⟨rfl, rstWithin_none.mp h⟩
  | some r =>
    have := rstWithin_some h
    exact .inr ⟨r, this.1, this.2.1, this.2.2, rfl, fun r' hm ha => by
      by_contra hc
      exact rstWithin_first h r' hm ha (by omega)⟩

end Sys2Proof.Machine
end

