-- ==== Sys2Proof/Laws/Exec.lean ====
section
/-! SUPPORT. One inversion lemma per meaning: if it answers next t, this is t and this held. -/

namespace Sys2Proof.Machine

theorem execDriveLow_next {s t : State} :
    execDriveLow s = .next t ↔ t = { s with ldMode := .outLow, resp := .none } := by
  simp [execDriveLow, eq_comm]

theorem execReleaseHigh_next {s t : State} :
    execReleaseHigh s = .next t ↔ t = { s with ldMode := .outHigh, resp := .none } := by
  simp [execReleaseHigh, eq_comm]

theorem execSwitchToInput_next {s t : State} :
    execSwitchToInput s = .next t ↔ t = { s with ldMode := .input, resp := .none } := by
  simp [execSwitchToInput, eq_comm]

theorem execReadLevel_next {s t : State} :
    execReadLevel s = .next t ↔ s.ldMode = .input ∧ t = { s with resp := .level (s.lineAt s.now).toBit } := by
  unfold execReadLevel; split <;> simp_all [eq_comm]

/-- 30 R79: bit 32 of the response is `timed_out`. -/
@[simp] theorem toBits_timedOut (m : PulseMeas) : m.toBits.getLsbD 32 = m.timedOut := by
  unfold PulseMeas.toBits
  rw [BitVec.getLsbD_append]
  simp

/-- 30 R79: bits 31:0 of the response are `duration_us`. -/
@[simp] theorem toBits_durationUs (m : PulseMeas) : m.toBits.extractLsb' 0 32 = m.durationUs := by
  refine BitVec.eq_of_getLsbD_eq fun i hi => ?_
  unfold PulseMeas.toBits
  rw [BitVec.getLsbD_extractLsb', BitVec.getLsbD_append]
  simp [hi]

theorem execMeasureWhile_next {l : Level} {T : U32} {s t : State} :
    execMeasureWhile l T s = .next t ↔ s.ldMode = .input ∧ t = finishMeasurement l T (measured s l T) s := by
  unfold execMeasureWhile; split <;> simp_all [eq_comm]

theorem execDelay_next {n : U32} {s t : State} :
    execDelay n s = .next t ↔ t = { s with dlCount := 0#32, resp := .none, now := s.now + n.toNat } := by
  simp [execDelay, State.advance, eq_comm]

theorem execRead_next {s t : State} :
    execRead s = .next t ↔ (s.resBusy = false ∧ t = s.acceptRead) ∨ (s.resBusy = true ∧ t = s) := by
  unfold execRead State.acceptsRead; cases s.resBusy <;> simp [eq_comm]

/-- No meaning changes the parameters or the outside world, none goes back in time, and none faults. -/
theorem exec_next_world {i : Instr} {s t : State} (h : exec i s = .next t) :
    t.cfg = s.cfg ∧ t.env = s.env ∧ s.now ≤ t.now := by
  cases i with
  | driveLow => rw [execDriveLow_next.mp h]; simp
  | releaseHigh => rw [execReleaseHigh_next.mp h]; simp
  | switchToInput => rw [execSwitchToInput_next.mp h]; simp
  | readLevel => rw [(execReadLevel_next.mp h).2]; simp
  | measureWhile l T => rw [(execMeasureWhile_next.mp h).2]; simp
  | delay n => rw [execDelay_next.mp h]; simp
  | read => obtain ⟨_, rfl⟩ | ⟨_, rfl⟩ := execRead_next.mp h <;> simp

end Sys2Proof.Machine
end

