-- ==== Sys2Proof/Laws/Step.lean ====
section
/-! SUPPORT. What a step can do, said once. -/

namespace Sys2Proof.Machine

theorem onNext_next {f : State → State} {r : Result} {t : State} :
    onNext f r = .next t ↔ ∃ u, r = .next u ∧ t = f u := by
  cases r <;> simp [onNext, eq_comm]

@[simp] theorem onNext_of_next (f : State → State) (s : State) : onNext f (.next s) = .next (f s) := rfl

theorem runOp_next {w : OpWord} {s t : State} :
    runOp w s = .next t ↔
      ∃ i u, decode w = .ok i ∧ exec i s.takeOp = .next u ∧ t = sequencerAfter i u := by
  unfold runOp
  cases h : decode w with
  | error r => simp
  | ok i => simp [onNext_next]

/-- Everything a step can do: one tick of reset, or an operation or a computation of the Sequencer with reset taken into
account at every tick up to its end. -/
theorem step_next {s t : State} :
    step s = .next t ↔
      (s.env.rstAt s.now = true ∧ t = s.heldInReset) ∨
      (s.env.rstAt s.now = false ∧ ∃ u, t = s.orReset u ∧
        ((∃ w, s.op = some w ∧ runOp w s = .next u) ∨ (s.op = none ∧ runPhase s = .next u))) := by
  unfold step
  cases hr : s.env.rstAt s.now with
  | true => simp [eq_comm]
  | false =>
    cases ho : s.op with
    | none => simp [onNext_next, and_comm]
    | some w => simp [onNext_next, and_comm]

/-- Everything an empty operation interface lets happen. -/
theorem runPhase_next {s t : State} :
    runPhase s = .next t ↔
      (s.fdPhase = .idle ∧ s.hostIssuesRead = true ∧ execRead s = .next t) ∨
      (s.fdPhase = .idle ∧ s.hostIssuesRead = false ∧ t = s.idleTick) ∨
      (s.fdPhase = .validate ∧ t = validate s) ∨
      (s.fdPhase = .convert ∧ s.cfg.family = .tenths16 ∧ t = s.returnOk s.fdFrame.hum16 s.fdFrame.temp16) ∨
      (s.fdPhase ≠ .idle ∧ s.fdPhase ≠ .validate ∧ s.fdPhase ≠ .convert ∧ t = s.enter s.fdPhase) := by
  unfold runPhase convert
  cases hp : s.fdPhase <;> simp only [reduceCtorEq, false_and, true_and, false_or, or_false, ne_eq, not_true_eq_false,
    not_false_eq_true, Host.Outcome.next.injEq, exec]
  case idle => cases hh : s.hostIssuesRead <;> simp [eq_comm]
  case convert => cases hf : s.cfg.family <;> simp [eq_comm]
  all_goals exact ⟨Eq.symm, Eq.symm⟩

/-- What the Sequencer can do when an operation of its own phase completes: what follows, or a Timeout. -/
theorem unlessTimedOut_cases (s t : State) :
    (s.ptMeas.timedOut = true ∧ unlessTimedOut s t = s.abort .timeout) ∨
    (s.ptMeas.timedOut = false ∧ unlessTimedOut s t = t) := by
  unfold unlessTimedOut; cases s.ptMeas.timedOut <;> simp

/-- The Sequencer leaves time, parameters and the outside world alone. -/
theorem sequencerAfter_world (i : Instr) (s : State) :
    (sequencerAfter i s).cfg = s.cfg ∧ (sequencerAfter i s).env = s.env ∧ (sequencerAfter i s).now = s.now := by
  unfold sequencerAfter
  cases s.fdPhase <;> cases i <;> simp [afterInLow, afterInRelease, afterMeasuring, unlessTimedOut, appendBit] <;>
    split <;> simp

/-- A READ was sampled on the port and is accepted (42 R120, 30 R82). -/
theorem hostIssuesRead_iff {s : State} :
    s.hostIssuesRead = true ↔
      s.polled = false ∧ s.resBusy = false ∧ ∃ w, s.env.cmdAt s.now = some w ∧ decode w = .ok .read := by
  unfold State.hostIssuesRead State.sampledCmd State.acceptsRead
  cases hp : s.polled <;> simp
  cases hc : s.env.cmdAt s.now with
  | none => simp
  | some w =>
    simp only [Option.some.injEq, exists_eq_left']
    split <;> simp_all

end Sys2Proof.Machine
end

