-- ==== Sys2Proof/Tests/Slice0.lean ====
section
/-! SUPPORT. Tests: the checks of WellFormed, words of spec/95_test_vectors.md, one step per operation, and for every obligation with hypotheses a witness that meets them together. Expected values are those of 95 (V<n>) and of the examples S<n> it transcribes. -/

namespace Sys2Proof.Tests

open Sys2Proof Sys2Proof.Machine Sys2Proof.Safety Sys2Proof.Config Sys2Proof.Claims

/-! ### WellFormed: an ill-formed term for each check -/

/-- V82 -/
theorem test_wf_refuses_uop_zero : (OpFields.mk 0b000#3 1#1 0xFFFFFFFF#32).uopOk = false := by decide
/-- V85 -/
theorem test_wf_refuses_level_in_delay : (OpFields.mk 0b110#3 1#1 5#32).levelOk = false := by decide
/-- V83 -/
theorem test_wf_refuses_imm_in_drive_low : (OpFields.mk 0b001#3 0#1 1#32).immOk = false := by decide
/-- V89 -/
theorem test_wf_accepts_measure_while : (OpFields.mk 0b101#3 1#1 0xFFFFFFFF#32).wf = true := by decide
/-- 00 R6: 41 is outside 20..40. -/
theorem test_wf_refuses_release : ({ Params.default with tReleaseUs := 41#32 } : Params).releaseOk = false := by decide
/-- 00 R6: a high timeout equal to the threshold decodes no 1. -/
theorem test_wf_refuses_threshold : ({ Params.default with toBitHighUs := 40#32 } : Params).thresholdOk = false := by decide
theorem test_wf_refuses_family : ({ Params.default with family := .other 0 } : Params).familyOk = false := by decide
theorem test_wf_accepts_defaults : Params.default.wf = true := by decide

/-! ### Decoding: words of 95 section 2.6 -/

theorem test_decode_V70 : decode 0xA00000055#36 = .ok (.measureWhile .low 85#32) := by decide
theorem test_decode_V73 : decode 0xB0000004B#36 = .ok (.measureWhile .high 75#32) := by decide
theorem test_decode_V74 : decode 0x200000000#36 = .ok .driveLow := by decide
theorem test_decode_V75 : decode 0x400000000#36 = .ok .releaseHigh := by decide
theorem test_decode_V76 : decode 0x600000000#36 = .ok .switchToInput := by decide
theorem test_decode_V77 : decode 0x800000000#36 = .ok .readLevel := by decide
theorem test_decode_V78 : decode 0xC00004E20#36 = .ok (.delay 20000#32) := by decide
theorem test_decode_V80 : decode 0xE00000000#36 = .ok .read := by decide
theorem test_decode_V81 : decode 0x000000000#36 = .error .reservedUop := by decide
theorem test_decode_V82 : decode 0x1FFFFFFFF#36 = .error .reservedUop := by decide
theorem test_decode_V83 : decode 0x200000001#36 = .error .immNotZero := by decide
theorem test_decode_V84 : decode 0x300000000#36 = .error .levelNotZero := by decide
theorem test_decode_V85 : decode 0xD00000005#36 = .error .levelNotZero := by decide
theorem test_decode_V86 : decode 0xE00000001#36 = .error .immNotZero := by decide
theorem test_decode_V87 : decode 0xF00000000#36 = .error .levelNotZero := by decide
theorem test_decode_V88 : decode 0xA00000000#36 = .ok (.measureWhile .low 0#32) := by decide
theorem test_decode_V89 : decode 0xBFFFFFFFF#36 = .ok (.measureWhile .high 0xFFFFFFFF#32) := by decide
theorem test_decode_too_wide : decodeTableWord 40 0x1200000000 = none := by decide
theorem test_decode_table_word : decodeTableWord 40 0xC0000001E = some (.delay 30#32) := by decide
theorem test_encode_V72 : encode (.measureWhile .low 56#32) = 0xA00000038#36 := by decide
theorem test_encode_V79 : encode (.delay 30#32) = 0xC0000001E#36 := by decide

/-! ### One operation each -/

/-- A state in a mode at a tick, with a sensor. -/
def at_ (m : DriveMode) (now : Nat) (pulls : List Pull) : State :=
  { State.reset with ldMode := m, now := now, env := { State.reset.env with sensor := pulls } }

/-- `low[a, b)` (95, conventions). -/
def low (a b : Nat) : Pull := ⟨a, some b⟩
/-- `low[a, ∞)`. -/
def lowFrom (a : Nat) : Pull := ⟨a, none⟩

/-- Why an outcome has no next state. -/
def whyRefused : Result → Option Refusal
  | .refused r => some r
  | _ => none

/-- What a test looks at in the outcome of an operation. -/
def seen {α : Type} (f : State → α) : Result → Option α
  | .next t => some (f t)
  | _ => none

/-- V3 -/
theorem test_drive_low_V3 : seen (fun t => (t.ldMode, t.linePullLow, t.lineAt 5, t.now)) (exec .driveLow (at_ .outHigh 5 [lowFrom 0])) =
    some (.outLow, true, .low, 5) := by decide
/-- V4 -/
theorem test_release_high_V4 : seen (fun t => (t.ldMode, t.linePullLow, t.lineAt 5, t.now)) (exec .releaseHigh (at_ .outLow 5 [])) =
    some (.outHigh, false, .high, 5) := by decide
/-- V5 -/
theorem test_release_high_V5 : seen (fun t => (t.ldMode, t.lineAt 5)) (exec .releaseHigh (at_ .outLow 5 [lowFrom 0])) =
    some (.outHigh, .low) := by decide
/-- V8 -/
theorem test_switch_to_input_V8 : seen (fun t => (t.ldMode, t.linePullLow, t.lineAt 5)) (exec .switchToInput (at_ .outLow 5 [])) =
    some (.input, false, .high) := by decide
/-- V9 -/
theorem test_switch_to_input_V9 : seen (fun t => (t.ldMode, t.lineAt 5)) (exec .switchToInput (at_ .input 5 [lowFrom 0])) =
    some (.input, .low) := by decide
/-- V10 -/
theorem test_read_level_V10 : seen (fun t => (t.resp, t.now)) (exec .readLevel (at_ .input 5 [low 0 5])) =
    some (.level 1#1, 5) := by decide
/-- V11 -/
theorem test_read_level_V11 : seen (fun t => t.resp) (exec .readLevel (at_ .input 5 [low 5 6])) = some (.level 0#1) := by decide
/-- V20 with the response of 95 section 2.6, V22 (a duration equal to the timeout), V30, V31 (a glitch of one tick), V32 -/
theorem test_measure_ends :
    seen (fun t => (t.ptMeas, t.now, t.resp)) (exec (.measureWhile .high 75#32) (at_ .input 1000 [lowFrom 1027])) =
      some (⟨false, 27#32⟩, 1027, .measurement 0x00000001B#33) ∧
    seen (fun t => (t.ptMeas, t.now)) (exec (.measureWhile .high 75#32) (at_ .input 1000 [lowFrom 1075])) =
      some (⟨false, 75#32⟩, 1075) ∧
    seen (fun t => (t.ptMeas, t.now)) (exec (.measureWhile .high 0#32) (at_ .input 1000 [lowFrom 0])) =
      some (⟨false, 0#32⟩, 1000) ∧
    seen (fun t => (t.ptMeas, t.now)) (exec (.measureWhile .high 75#32) (at_ .input 1000 [low 1010 1011])) =
      some (⟨false, 10#32⟩, 1010) ∧
    seen (fun t => (t.ptMeas, t.now)) (exec (.measureWhile .high 0xFFFFFFFF#32) (at_ .input 0 [lowFrom 4294967295])) =
      some (⟨false, 0xFFFFFFFF#32⟩, 4294967295) := by decide
/-- V23, V26, V29, V33 (2^32 elapsed ticks in 33 bits) -/
theorem test_measure_times_out :
    seen (fun t => (t.ptMeas.timedOut, t.now)) (exec (.measureWhile .high 75#32) (at_ .input 1000 [lowFrom 1076])) =
      some (true, 1076) ∧
    seen (fun t => (t.ptMeas.timedOut, t.now)) (exec (.measureWhile .low 56#32) (at_ .input 1000 [low 900 1057])) =
      some (true, 1057) ∧
    seen (fun t => (t.ptMeas.timedOut, t.now)) (exec (.measureWhile .high 0#32) (at_ .input 1000 [])) =
      some (true, 1001) ∧
    seen (fun t => (t.ptMeas.timedOut, t.ptElapsed, t.now)) (exec (.measureWhile .high 0xFFFFFFFF#32) (at_ .input 0 [])) =
      some (true, 0x100000000#33, 4294967296) := by decide
/-- V39d -/
theorem test_delay_V39d : seen (fun t => (t.now, t.dlCount, t.ldMode)) (exec (.delay 0xFFFFFFFF#32) (at_ .outLow 0 [])) =
    some (4294967295, 0#32, .outLow) := by decide
/-- V39c -/
theorem test_delay_V39c : seen (fun t => t.now) (exec (.delay 0#32) (at_ .outLow 5 [])) = some 5 := by decide
/-- P1, first line of its table. -/
theorem test_read_P1 : seen (fun t => (t.resBusy, t.fdPhase.code, t.op, t.now)) (exec .read State.reset) =
    some (true, 0x1#4, some 0x200000000#36, 0) := by decide
/-- 60 R157: ignored while busy. -/
theorem test_read_busy : seen id (exec .read { State.reset with resBusy := true, resDone := true }) =
    some { State.reset with resBusy := true, resDone := true } := by decide

/-! ### The computations of READ -/

/-- V49, V51: the ninth bit goes to byte1. -/
theorem test_append_V49 : (Frame.mk 0x01#8 0#8 0#8 0#8 0#8).append 7 false = ⟨0x02#8, 0#8, 0#8, 0#8, 0#8⟩ := by decide
theorem test_append_V51 : (Frame.mk 0xFF#8 0#8 0#8 0#8 0#8).append 8 true = ⟨0xFF#8, 0x01#8, 0#8, 0#8, 0#8⟩ := by decide
/-- V52 -/
theorem test_append_V52 : (Frame.mk 0x02#8 0x14#8 0x01#8 0x05#8 0x0E#8).append 39 false = ⟨0x02#8, 0x14#8, 0x01#8, 0x05#8, 0x1C#8⟩ := by decide
/-- V54, V55, V58 -/
theorem test_checksum_V54 : (Frame.mk 0x02#8 0x14#8 0x01#8 0x05#8 0x1C#8).checksumOk = true := by decide
theorem test_checksum_V55 : (Frame.mk 0x02#8 0x14#8 0x01#8 0x05#8 0x1A#8).checksumOk = false := by decide
theorem test_checksum_V58 : (Frame.mk 0x80#8 0x80#8 0#8 0#8 0#8).checksumOk = true := by decide
/-- V64, V65, V67, V68 -/
theorem test_convert_V64 : (Frame.mk 0x01#8 0x90#8 0x80#8 0x05#8 0x16#8).temp16 = 0xFFFB#16 := by decide
theorem test_convert_V65 : (Frame.mk 0#8 0#8 0x80#8 0#8 0x80#8).temp16 = 0#16 := by decide
theorem test_convert_V67 : (Frame.mk 0xFF#8 0xFF#8 0xFF#8 0xFF#8 0xFC#8).temp16 = 0x8001#16 := by decide
theorem test_convert_V68 : (Frame.mk 0x80#8 0#8 0x7F#8 0xFF#8 0#8).hum16 = 0x8000#16 := by decide
/-- V40, V41 -/
theorem test_bit_V40 : decodedBit 40#32 Params.default.bitThresholdUs = false := by decide
theorem test_bit_V41 : decodedBit 41#32 Params.default.bitThresholdUs = true := by decide

/-! ### Single steps -/

/-- A block in the middle of a read, at tick 20030. -/
def reading (p : Phase) (i : Option Instr) (n : Nat) (f : Frame) (pulls : List Pull) : State :=
  { State.reset with fdPhase := p, op := i.map encode, fdBitidx := BitVec.ofNat 6 n, fdFrame := f, resBusy := true,
                     polled := true, now := 20030, env := { State.reset.env with sensor := pulls } }

/-- S7's frame, all bits in. -/
def frameS7 : Frame := ⟨0x02#8, 0x14#8, 0x01#8, 0x05#8, 0x1C#8⟩
/-- S7's frame with its mismatched checksum. -/
def frameS7bad : Frame := ⟨0x02#8, 0x14#8, 0x01#8, 0x05#8, 0x1A#8⟩

/-- P1, operation 2: the request pulse. -/
def pulling : State :=
  { reading .requestPulseLow (some (.delay 20000#32)) 0 Frame.zero [] with ldMode := .outLow, fdOwner := .driving }

/-- V90 -/
theorem test_ports_V90 : State.reset.ports = ⟨false, false, false, false, 0b00#2, 0#16, 0#16⟩ := by decide
/-- V92: the ports after Convert of S7. -/
theorem test_step_V92 : seen State.ports (step (reading .convert none 40 frameS7 [])) =
    some ⟨false, false, true, true, 0b00#2, 0x0214#16, 0x0105#16⟩ := by decide
/-- V95 -/
theorem test_step_V95 : seen State.ports (step (reading .validate none 40 frameS7bad [])) =
    some ⟨false, false, true, false, 0b10#2, 0#16, 0#16⟩ := by decide
/-- P4, operation 7: the Timeout of a line that stays high. -/
theorem test_step_P4 : seen (fun t => (t.ports, t.now, t.ptElapsed))
      (step (reading .awaitResponseHigh (some (.measureWhile .high 85#32)) 0 Frame.zero [])) =
    some (⟨false, false, true, false, 0b01#2, 0#16, 0#16⟩, 20116, 86#33) := by decide
/-- P1, the 40th high phase: on to Validate with the whole frame. -/
theorem test_step_P1_last_bit : seen (fun t => (t.fdFrame, t.fdBitidx, t.fdPhase, t.op, t.now))
      (step (reading .bitLoopHigh (some (.measureWhile .high 75#32)) 39 ⟨0x02#8, 0x14#8, 0x01#8, 0x05#8, 0x0E#8⟩ [lowFrom 20057])) =
    some (frameS7, 40#6, .validate, none, 20057) := by decide
/-- 60 R154(d): reset inside a delay; the block is in reset at the first such tick. -/
theorem test_step_reset_wins : seen (fun t => (t.fdPhase, t.ldMode, t.resBusy, t.now))
      (step { pulling with env := ⟨[], [], [20100, 20050]⟩ }) = some (.idle, .input, false, 20050) := by decide
/-- 93 U12: a reserved word on the operation interface is refused. -/
theorem test_step_reserved : whyRefused (step { State.reset with op := some 0xF00000000#36 }) = some .reservedOpWord := by decide
/-- 30 R81: on the host port it is ignored. -/
theorem test_step_reserved_on_cmd : seen (fun t => (t.resBusy, t.now))
    (step { State.reset with env := ⟨[], [(0, 0xF00000000#36)], []⟩ }) = some (false, 1) := by decide
/-- A word placed for the next step is run by it. -/
theorem test_step_with_fetch_word : seen (fun t => t.ldMode) (step (State.reset.withFetchWord 40 0x200000000)) = some .outLow := by decide

/-! ### Witnesses: concrete states and operands that meet the hypotheses of the obligations -/

theorem next_of_seen {α : Type} {f : State → α} {r : Result} {a : α} (h : seen f r = some a) : ∃ t, r = .next t ∧ f t = a := by
  cases r with
  | next t => exact ⟨t, rfl, by simpa [seen] using h⟩
  | fault r => cases r
  | refused r => simp [seen] at h

/-- P1 before its last bit. -/
def lastBit : State :=
  reading .bitLoopHigh (some (.measureWhile .high 75#32)) 39 ⟨0x02#8, 0x14#8, 0x01#8, 0x05#8, 0x0E#8⟩ [lowFrom 20057]
/-- P1 before Convert. -/
def converting : State := reading .convert none 40 frameS7 []
/-- P1 before Validate. -/
def validating : State := reading .validate none 40 frameS7 []
/-- An idle block after P1's reading. -/
def readingDone : State := { State.reset with resDone := true, resValid := true, resHum := 0x0214#16, resTemp := 0x0105#16 }
/-- An idle block with READ on `cmd` at ticks 0 and 1. -/
def readAtZero : State := { State.reset with env := ⟨[], [(0, 0xE00000000#36), (1, 0xE00000000#36)], []⟩ }
/-- A block with `rst = 1` at ticks 7 and 9. -/
def resetAtSeven : Env := ⟨[], [], [7, 9]⟩

theorem lastBit_inv : Invariant lastBit := by
  constructor <;> first | decide | exact rfl
theorem pulling_inv : Invariant pulling := by
  constructor <;> first | decide | exact Or.inr ⟨rfl, rfl⟩
theorem converting_inv : Invariant converting := by
  constructor <;> first | decide | exact rfl
theorem validating_inv : Invariant validating := by
  constructor <;> first | decide | exact rfl
theorem readingDone_inv : Invariant readingDone := by
  constructor <;> first | decide | exact ⟨rfl, rfl⟩

/-- A block that no reset reaches. -/
theorem noReset_of_nil {s : State} (h : s.env.rst = []) (a b : Nat) : NoReset s a b := by
  intro r hr; rw [h] at hr; cases hr

theorem witness_EncodeOfDecodeIsTheWord :
    decode 0xBFFFFFFFF#36 = .ok (.measureWhile .high 0xFFFFFFFF#32) ∧ decode 0xE00000000#36 = .ok .read := by decide

theorem witness_ReservedWordsAreIgnoredOrRefused_op :
    let s := { State.reset with op := some 0xD00000005#36 }
    decode 0xD00000005#36 = .error .levelNotZero ∧ s.env.rstAt s.now = false ∧ s.op = some 0xD00000005#36 := by decide
theorem witness_ReservedWordsAreIgnoredOrRefused_cmd :
    let s := { State.reset with env := ⟨[], [(0, 0x1FFFFFFFF#36)], [2]⟩ }
    decode 0x1FFFFFFFF#36 = .error .reservedUop ∧ s.env.cmdAt s.now = some 0x1FFFFFFFF#36 ∧ s.fdPhase = .idle ∧ s.op = none ∧
      NoReset s s.now (s.now + 1) := by unfold NoReset; decide
theorem witness_ReservedWordsAreIgnoredOrRefused_issued :
    Invariant lastBit ∧ lastBit.op = some (encode (.measureWhile .high 75#32)) := ⟨lastBit_inv, rfl⟩

theorem witness_ReadLevelSamplesTheLine :
    (at_ .input 5 [low 5 6]).ldMode = .input ∧ (at_ .outLow 5 []).ldMode ≠ .input ∧ (at_ .outHigh 5 []).ldMode ≠ .input := by decide

theorem witness_ReadLevelSamplesTheLine_sequencer : Invariant pulling ∧ pulling.ldMode ≠ .input := ⟨pulling_inv, by decide⟩

theorem witness_ModeTransitionTable_reset : { State.reset with now := 7, env := resetAtSeven }.env.rstAt 7 = true := by decide
theorem witness_ModeTransitionTable_others :
    ∃ t, exec (.measureWhile .high 75#32) (at_ .input 1000 [lowFrom 1027]) = .next t ∧ t.now = 1027 :=
  next_of_seen (by decide)
theorem witness_ModeTransitionTable_sequencer :
    validating.fdPhase = .validate ∧ validating.op = none ∧ validating.env.rstAt validating.now = false ∧
      (∃ t, step validating = .next t ∧ t.fdPhase = .convert) ∧
      converting.fdPhase = .convert ∧ converting.op = none ∧ converting.env.rstAt converting.now = false ∧
      ∃ t, step converting = .next t ∧ t.fdPhase = .idle :=
  ⟨rfl, rfl, rfl, next_of_seen (by decide), rfl, rfl, rfl, next_of_seen (by decide)⟩

/-- `D` at both ends of its range, and a line that stays. -/
theorem witness_MeasureWhileClosedForm :
    HoldsFor (freeLine (at_ .input 1000 [lowFrom 1000]).env) .high 1000 0 ∧
    HoldsFor (freeLine (at_ .input 1000 [lowFrom 1075]).env) .high 1000 75 ∧
    HoldsPast (freeLine (at_ .input 1000 [lowFrom 1076]).env) .high 1000 75 ∧ (at_ .input 1000 []).ldMode = .input := by
  unfold HoldsFor HoldsPast; decide

theorem witness_MeasureWhileIsTheSamplingLoop :
    (at_ .input 1000 []).ldMode = .input ∧ (at_ .outLow 1000 []).ldMode ≠ .input := by decide

/-- V35, V36 -/
theorem witness_BackToBackMeasurementsCountEveryTick :
    ∃ t, exec (.measureWhile .low 56#32) (at_ .input 1000 [low 1000 1050, low 1077 1127]) = .next t ∧
      t.ptMeas = ⟨false, 50#32⟩ ∧
      ∃ u, exec (.measureWhile (opposite .low) 75#32) t = .next u ∧ u.ptMeas = ⟨false, 27#32⟩ :=
  ⟨_, rfl, by decide, next_of_seen (by decide)⟩

theorem witness_ReadIsAcceptedWhenNotBusy : State.reset.resBusy = false ∧ readingDone.resBusy = false := by decide

theorem witness_HostIsIgnoredWhileBusy : Invariant lastBit ∧ lastBit.resBusy = true := ⟨lastBit_inv, rfl⟩

/-- P4's read, 0 to 20116: a host that reads again one tick after the end keeps 70 R185; one that presents READ inside the
request pulse's delay, or in the end tick, breaks it. -/
theorem test_duty_no_read_while_busy :
    NoReadWhileBusy ⟨[], [(0, 0xE00000000#36), (20117, 0xE00000000#36)], []⟩ 0 20116 ∧
    ¬ NoReadWhileBusy ⟨[], [(0, 0xE00000000#36), (10000, 0xE00000000#36)], []⟩ 0 20116 ∧
    ¬ NoReadWhileBusy ⟨[], [(0, 0xE00000000#36), (20116, 0xE00000000#36)], []⟩ 0 20116 := by
  refine ⟨fun t h0 h1 hc => ?_, fun h => h 10000 (by decide) (by decide) (by decide),
    fun h => h 20116 (by decide) (by decide) (by decide)⟩
  have h2 : ¬ 0 = t := by omega
  have h3 : ¬ 20117 = t := by omega
  simp [Env.cmdAt, h2, h3] at hc

theorem witness_IdleBlockAcceptsOnlyRead :
    readAtZero.fdPhase = .idle ∧ readAtZero.resBusy = false ∧ readAtZero.op = none ∧
      NoReset readAtZero readAtZero.now (readAtZero.now + 1) ∧ readAtZero.polled = false ∧
      readAtZero.env.cmdAt readAtZero.now = some 0xE00000000#36 ∧
      State.reset.env.cmdAt State.reset.now ≠ some 0xE00000000#36 ∧ { readAtZero with polled := true }.polled = true := by
  unfold NoReset; decide

/-- `converting` with READ on `cmd` in the end tick and in the next. -/
def convertingReadTwice : State :=
  { converting with env := ⟨[], [(20030, 0xE00000000#36), (20031, 0xE00000000#36)], []⟩ }
theorem witness_ReadInTheEndTickIsIgnored :
    Invariant convertingReadTwice ∧ convertingReadTwice.resBusy = true ∧ NoReset convertingReadTwice 20030 20031 ∧
      (∃ t, step convertingReadTwice = .next t ∧
        (t.resBusy, t.now, t.env.cmdAt t.now) = (false, 20030, some 0xE00000000#36)) ∧
      ∃ u, runSteps 2 convertingReadTwice = .next u ∧ (u.now, u.env.cmdAt u.now) = (20031, some 0xE00000000#36) :=
  ⟨by constructor <;> first | decide | exact rfl, rfl, noReset_of_nil rfl _ _, next_of_seen (by decide), next_of_seen (by decide)⟩

theorem witness_RequestPulse :
    readAtZero.resBusy = false ∧ NoReset readAtZero readAtZero.now (listenTick readAtZero.cfg readAtZero.now) :=
  ⟨rfl, noReset_of_nil rfl _ _⟩

/-- Shortest, longest and endless pulses in each measuring phase. -/
theorem witness_AwaitResponseLow :
    let s := reading .awaitResponseLow (some (.measureWhile .low 85#32)) 0 Frame.zero
    Measuring (s []) .awaitResponseLow .low (s []).cfg.toAckLowUs ∧
      HoldsFor (freeLine (s []).env) .low 20030 0 ∧ HoldsFor (freeLine (s [low 0 20115]).env) .low 20030 85 ∧
      HoldsPast (freeLine (s [lowFrom 0]).env) .low 20030 85 := by
  unfold Measuring HoldsFor HoldsPast NoReset; decide
theorem witness_AwaitResponseHigh :
    let s := reading .awaitResponseHigh (some (.measureWhile .high 85#32)) 0 Frame.zero
    Measuring (s []) .awaitResponseHigh .high (s []).cfg.toAckHighUs ∧
      HoldsFor (freeLine (s [lowFrom 0]).env) .high 20030 0 ∧ HoldsFor (freeLine (s [lowFrom 20115]).env) .high 20030 85 ∧
      HoldsPast (freeLine (s []).env) .high 20030 85 := by
  unfold Measuring HoldsFor HoldsPast NoReset; decide
theorem witness_BitLoopLow :
    let s := reading .bitLoopLow (some (.measureWhile .low 56#32)) 8 Frame.zero
    Measuring (s []) .bitLoopLow .low (s []).cfg.toBitLowUs ∧
      HoldsFor (freeLine (s []).env) .low 20030 0 ∧ HoldsFor (freeLine (s [low 0 20086]).env) .low 20030 56 ∧
      HoldsPast (freeLine (s [lowFrom 0]).env) .low 20030 56 := by
  unfold Measuring HoldsFor HoldsPast NoReset; decide
/-- The 40th bit, and a bit inside a byte. -/
theorem witness_BitLoopHigh :
    Measuring lastBit .bitLoopHigh .high lastBit.cfg.toBitHighUs ∧ lastBit.fdBitidx.toNat < 40 ∧
      HoldsFor (freeLine lastBit.env) .high 20030 27 ∧
      (let s := reading .bitLoopHigh (some (.measureWhile .high 75#32)) 7 Frame.zero
       Measuring (s []) .bitLoopHigh .high (s []).cfg.toBitHighUs ∧ HoldsFor (freeLine (s [lowFrom 20105]).env) .high 20030 75 ∧
         HoldsPast (freeLine (s []).env) .high 20030 75) := by
  unfold Measuring HoldsFor HoldsPast NoReset; decide

/-- V54, V55 -/
theorem witness_ValidateChecksTheSum :
    validating.fdPhase = .validate ∧ validating.op = none ∧ validating.env.rstAt validating.now = false ∧
      (2 + 20 + 1 + 5) % 256 = validating.fdFrame.byte4.toNat ∧ (2 + 20 + 1 + 5) % 256 ≠ frameS7bad.byte4.toNat := by decide

theorem witness_ConvertMakesTheReading :
    converting.fdPhase = .convert ∧ converting.op = none ∧ converting.env.rstAt converting.now = false ∧
      converting.cfg.family = .tenths16 ∧ { converting.cfg with family := .other 1 }.family ≠ .tenths16 := by decide

theorem witness_TransitionTableIsComplete :
    Invariant lastBit ∧ (∃ t, step lastBit = .next t ∧ t.now = 20057) ∧ NoReset lastBit lastBit.now 20057 ∧
      Invariant pulling ∧ ∃ t, step pulling = .next t ∧ t.now = 40030 :=
  ⟨lastBit_inv, next_of_seen (by decide), noReset_of_nil rfl _ _, pulling_inv, next_of_seen (by decide)⟩
/-- `lastBit` with `rst = 1` at tick 20040, inside its measurement. -/
def lastBitReset : State := { lastBit with env := ⟨[lowFrom 20057], [], [20040]⟩ }
theorem witness_TransitionTableIsComplete_reset :
    Invariant lastBitReset ∧ (∃ t, step lastBitReset = .next t ∧ t.now = 20040) ∧ ¬ NoReset lastBitReset lastBitReset.now 20040 := by
  refine ⟨?_, next_of_seen (by decide), fun h => h 20040 (by decide) (by decide)⟩
  constructor <;> first | decide | exact rfl

theorem witness_StepKeepsTheInvariant :
    Invariant lastBit ∧ (∃ t, step lastBit = .next t ∧ t.fdPhase = .validate) ∧
      Invariant validating ∧ ∃ t, step validating = .next t ∧ t.fdPhase = .convert :=
  ⟨lastBit_inv, next_of_seen (by decide), validating_inv, next_of_seen (by decide)⟩

theorem witness_ResetHoldsAtEveryTick :
    ∃ t, step lastBitReset = .next t ∧ (t.now, t.env.rstAt t.now) = (20040, true) := next_of_seen (by decide)

theorem witness_ResetAbandonsTheOperation :
    (∃ t, step { lastBitReset with env := { lastBitReset.env with rst := [] } } = .next t ∧ t.now = 20057) ∧
      20040 ∈ lastBitReset.env.rst ∧ lastBitReset.now < 20040 ∧ 20040 ≤ 20057 ∧
      (∀ r ∈ lastBitReset.env.rst, lastBitReset.now ≤ r → 20040 ≤ r) ∧
      (7 ∈ { State.reset with now := 7, env := resetAtSeven }.env.rst) ∧ NoReset lastBit lastBit.now 20057 :=
  ⟨next_of_seen (by decide), by decide, by decide, by decide, by decide, by decide, noReset_of_nil rfl _ _⟩

theorem witness_StepKeepsParametersAndWorld : ∃ t, step lastBit = .next t ∧ t.now = 20057 := next_of_seen (by decide)

theorem witness_TheBlockNeverStops :
    Invariant converting ∧ converting.cfg.family = .tenths16 ∧ Invariant pulling ∧ pulling.fdPhase ≠ .convert :=
  ⟨converting_inv, by decide, pulling_inv, by decide⟩

theorem witness_OwnershipAlternates :
    Invariant pulling ∧ pulling.linePullLow = true ∧ Invariant lastBit ∧ lastBit.op = some (encode (.measureWhile .high 75#32)) ∧
      Invariant readingDone ∧ readingDone.fdPhase = .idle :=
  ⟨pulling_inv, by decide, lastBit_inv, rfl, readingDone_inv, rfl⟩

theorem witness_ResultPortsShowOneOutcome :
    Invariant readingDone ∧ readingDone.resDone = true ∧ Invariant lastBit ∧ lastBit.resDone = false :=
  ⟨readingDone_inv, rfl, lastBit_inv, rfl⟩

theorem witness_StepRunsTheDecodedOperation :
    lastBit.env.rstAt lastBit.now = false ∧ lastBit.op = some 0xB0000004B#36 ∧
      decode 0xB0000004B#36 = .ok (.measureWhile .high 75#32) ∧ decodeTableWord 40 0xE00000000 = some .read := by decide

theorem witness_ReadExpandsIntoTheFixedSequence :
    readAtZero.resBusy = false ∧ (∃ t, runSteps 0 readAtZero.acceptRead = .next t ∧ t.resBusy = true) ∧
      (∃ t, runSteps 1 readAtZero.acceptRead = .next t ∧ t.resBusy = true) ∧
      ∃ t, runSteps 2 readAtZero.acceptRead = .next t ∧ t.resBusy = true :=
  ⟨rfl, next_of_seen (by decide), next_of_seen (by decide), next_of_seen (by decide)⟩

theorem witness_ReadOutcomeIsTheClosedForm :
    readAtZero.resBusy = false ∧ readAtZero.cfg.family = .tenths16 ∧
      NoReset readAtZero readAtZero.now (readOutcome readAtZero.cfg (freeLine readAtZero.env) 20030).2 :=
  ⟨rfl, rfl, noReset_of_nil rfl _ _⟩

/-- Parameters with short times, so that a whole frame is small. -/
def quick : Params :=
  { Params.default with tStartUs := 3#32, tReleaseUs := 2#32, toAckLowUs := 2#32, toAckHighUs := 2#32, toBitLowUs := 1#32,
                        toBitHighUs := 2#32, bitThresholdUs := 1#32 }
/-- The high width of frame bit `n`: 2 for a 1, 1 for a 0. -/
def highOf (f : Frame) (n : Nat) : Nat := if frameBit f n then 2 else 1
/-- A line that carries `f` from tick 5 on: acknowledgement low [5, 6), high [6, 7), then the forty cells and a closing low. -/
def carrying (f : Frame) : State :=
  { State.reset with cfg := quick,
                     env := ⟨low 5 6 :: (List.range 41).map (fun n =>
                       low (cellStart (fun _ => 1) (highOf f) 7 n) (cellStart (fun _ => 1) (highOf f) 7 n + 1)), [], []⟩ }

/-- S7: its frame with the right checksum and with the wrong one. -/
theorem witness_AFrameOnTheLineIsRead_ok :
    (carrying frameS7).resBusy = false ∧ (carrying frameS7).cfg.family = .tenths16 ∧
      Carries quick (freeLine (carrying frameS7).env) (listenTick quick 0) 1 1 (fun _ => 1) (highOf frameS7) frameS7 ∧
      (2 + 20 + 1 + 5) % 256 = frameS7.byte4.toNat := by
  unfold Carries HoldsFor; decide
theorem witness_AFrameOnTheLineIsRead_bad :
    Carries quick (freeLine (carrying frameS7bad).env) (listenTick quick 0) 1 1 (fun _ => 1) (highOf frameS7bad) frameS7bad ∧
      (2 + 20 + 1 + 5) % 256 ≠ frameS7bad.byte4.toNat := by
  unfold Carries HoldsFor; decide
theorem witness_AFrameOnTheLineIsRead_reset (a b : Nat) : NoReset (carrying frameS7) a b := noReset_of_nil rfl a b

theorem witness_EveryReadEndsInTime :
    readAtZero.resBusy = false ∧ readAtZero.cfg = Params.default ∧ NoReset readAtZero readAtZero.now (readAtZero.now + 25441) :=
  ⟨rfl, rfl, noReset_of_nil rfl _ _⟩

/-- Two blocks with other registers, other draws and another sensor before `t2`. -/
theorem witness_ReadsAreIndependentOfThePast :
    let s₁ := at_ .input 0 [lowFrom 20030]
    let s₂ := { readingDone with fdFrame := frameS7, draws := 5, env := ⟨[low 3 9, lowFrom 20030], [], []⟩ }
    s₁.resBusy = false ∧ s₂.resBusy = false ∧ s₁.cfg = s₂.cfg ∧ s₁.now = s₂.now ∧ s₁.env.cmd = s₂.env.cmd ∧
      s₁.env.rst = s₂.env.rst ∧ s₁ ≠ s₂ ∧
      ∀ t, listenTick s₁.cfg s₁.now ≤ t → s₁.env.sensorLow t = s₂.env.sensorLow t := by
  refine ⟨rfl, rfl, rfl, rfl, rfl, rfl, by decide, fun t h => ?_⟩
  have h : 20030 ≤ t := h
  have h9 : ¬ t < 9 := by omega
  simp [Env.sensorLow, Pull.covers, at_, lowFrom, low, h, h9]

/-- P4 -/
theorem witness_NoSensorEndsInTimeout :
    readAtZero.resBusy = false ∧ HoldsPast (freeLine readAtZero.env) .high (listenTick readAtZero.cfg readAtZero.now) 85 ∧
      readAtZero.cfg.toAckHighUs.toNat = 85 ∧ NoReset readAtZero readAtZero.now 20116 :=
  ⟨rfl, by unfold HoldsPast; decide, rfl, noReset_of_nil rfl _ _⟩
/-- P5 -/
theorem witness_StuckLowLineEndsInTimeout :
    let s := at_ .input 0 [lowFrom 20000]
    s.resBusy = false ∧ HoldsPast (freeLine s.env) .low (listenTick s.cfg s.now) s.cfg.toAckLowUs.toNat ∧
      NoReset s s.now (listenTick s.cfg s.now + s.cfg.toAckLowUs.toNat + 1) :=
  ⟨rfl, by unfold HoldsPast; decide, noReset_of_nil rfl _ _⟩
/-- A sensor that answers one tick late, and one that answers 85 ticks late. -/
theorem witness_LateSensorEndsInTimeout :
    let s := at_ .input 0 [low 20031 20111]
    let s' := at_ .input 0 [low 20115 20195]
    s.resBusy = false ∧ HoldsFor (freeLine s.env) .high (listenTick s.cfg s.now) 1 ∧
      HoldsPast (freeLine s.env) .low (listenTick s.cfg s.now + 1) s.cfg.toBitLowUs.toNat ∧
      85 ≤ s'.cfg.toAckHighUs.toNat ∧ HoldsFor (freeLine s'.env) .high (listenTick s'.cfg s'.now) 85 ∧
      HoldsPast (freeLine s'.env) .low (listenTick s'.cfg s'.now + 85) s'.cfg.toBitLowUs.toNat ∧
      NoReset s s.now (listenTick s.cfg s.now + 1 + s.cfg.toBitLowUs.toNat + 1) :=
  ⟨rfl, by unfold HoldsFor; decide, by unfold HoldsPast; decide, by decide, by unfold HoldsFor; decide,
    by unfold HoldsPast; decide, noReset_of_nil rfl _ _⟩

end Sys2Proof.Tests
end

/-! PROOFS. The family of 00_scope: what no step changes (O36), and which operation a step runs (O40). -/

namespace Sys2Proof.Machine

/-! ### Parameters, outside world and time over a step -/

theorem validate_world (s : State) :
    (validate s).cfg = s.cfg ∧ (validate s).env = s.env ∧ (validate s).now = s.now := by
  unfold validate
  cases s.fdFrame.checksumOk <;> simp

theorem runOp_next_world {w : OpWord} {s t : State} (h : runOp w s = .next t) :
    t.cfg = s.cfg ∧ t.env = s.env ∧ s.now ≤ t.now := by
  obtain ⟨i, u, -, hexec, rfl⟩ := runOp_next.mp h
  obtain ⟨hcfg, henv, hnow⟩ := sequencerAfter_world i u
  simpa [hcfg, henv, hnow] using exec_next_world hexec

theorem runPhase_next_world {s t : State} (h : runPhase s = .next t) :
    t.cfg = s.cfg ∧ t.env = s.env ∧ s.now ≤ t.now := by
  obtain ⟨-, -, hread⟩ | ⟨-, -, rfl⟩ | ⟨-, rfl⟩ | ⟨-, -, rfl⟩ | ⟨-, -, -, rfl⟩ := runPhase_next.mp h
  · exact exec_next_world (i := .read) hread
  · simp
  · simp [validate_world s]
  · simp
  · simp

/-- A reset tick that wins lies after the start of the step, so time does not go back there either (60 R154(d)). -/
theorem orReset_world {s u : State} (h : u.cfg = s.cfg ∧ u.env = s.env ∧ s.now ≤ u.now) :
    (s.orReset u).cfg = s.cfg ∧ (s.orReset u).env = s.env ∧ s.now ≤ (s.orReset u).now := by
  obtain ⟨heq, -⟩ | ⟨r, -, hlt, -, heq, -⟩ := orReset_cases s u
  · rwa [heq]
  · simp [heq, hlt.le]

theorem step_next_world {s t : State} (h : step s = .next t) :
    t.cfg = s.cfg ∧ t.env = s.env ∧ s.now ≤ t.now := by
  obtain ⟨-, rfl⟩ | ⟨-, u, rfl, ⟨w, -, hop⟩ | ⟨-, hphase⟩⟩ := step_next.mp h
  · simp [State.heldInReset]
  · exact orReset_world (runOp_next_world hop)
  · exact orReset_world (runPhase_next_world hphase)

/-! ### The operation a step runs -/

theorem runOp_of_decode {w : OpWord} {i : Instr} (h : decode w = .ok i) (s : State) :
    runOp w s = onNext (sequencerAfter i) (exec i s.takeOp) := by
  simp [runOp, h]

theorem step_of_op {s : State} {w : OpWord} (hrst : s.env.rstAt s.now = false) (hop : s.op = some w) :
    step s = onNext s.orReset (runOp w s) := by
  simp [step, hrst, hop]

theorem step_of_decode {s : State} {w : OpWord} {i : Instr} (hrst : s.env.rstAt s.now = false)
    (hop : s.op = some w) (hdec : decode w = .ok i) :
    step s = onNext s.orReset (onNext (sequencerAfter i) (exec i s.takeOp)) := by
  rw [step_of_op hrst hop, runOp_of_decode hdec]

/-- A number the decoder accepts has at most 36 bits (30 R77). -/
theorem decodeTableWord_some {nbits w : Nat} {i : Instr} :
    decodeTableWord nbits w = some i ↔ w < 2 ^ 36 ∧ decode (BitVec.ofNat 36 w) = .ok i := by
  unfold decodeTableWord decodeNat
  by_cases hw : w < 2 ^ 36
  · rw [if_pos hw, and_iff_right hw]
    cases decode (BitVec.ofNat 36 w) <;> simp
  · rw [if_neg hw]
    exact iff_of_false nofun fun h => hw h.1

@[simp] theorem withFetchWord_op (s : State) (nbits w : Nat) :
    (s.withFetchWord nbits w).op = some (BitVec.ofNat 36 w) := rfl

/-- Placing a word takes the reset of the present tick away (log 5). -/
@[simp] theorem withFetchWord_rstAt_now (s : State) (nbits w : Nat) :
    (s.withFetchWord nbits w).env.rstAt s.now = false := by
  simp [State.withFetchWord, Env.rstAt]

end Sys2Proof.Machine

namespace Sys2Proof.Proofs

open Sys2Proof.Machine

/-- Settles O36: the operation, the Sequencer and reset each leave parameters and outside world alone, and a reset that wins
comes after the step's start. -/
theorem stepKeepsParametersAndWorld : Obligations.StepKeepsParametersAndWorld :=
  fun _ _ h => step_next_world h

/-- Settles O40: `withFetchWord` makes a state of the first clause, a word that decodes being placed whole. -/
theorem stepRunsTheDecodedOperation : Obligations.StepRunsTheDecodedOperation := by
  refine ⟨fun s w i hrst hop hdec => step_of_decode hrst hop hdec, fun s nbits w i htab => ?_⟩
  obtain ⟨-, hdec⟩ := decodeTableWord_some.mp htab
  exact step_of_decode (withFetchWord_rstAt_now s nbits w) (withFetchWord_op s nbits w) hdec

end Sys2Proof.Proofs

/-! PROOFS. The family of 10_state: the reset values (O31, O32), the invariants of the registers and what every step keeps of
them (O33, O38), and reset at the tick a step reaches (O34). -/

namespace Sys2Proof

/-! ### The words the Sequencer issues (30 R78) -/

theorem decodeFields_encodeFields (i : Instr) : decodeFields (encodeFields i) = .ok i := by
  cases i <;> simp [decodeFields, encodeFields, decodeBare]

@[simp] theorem decode_encode (i : Instr) : decode (encode i) = .ok i := by
  rw [decode, ofWord_encode, decodeFields_encodeFields]

theorem encode_inj {i j : Instr} : encode i = encode j ↔ i = j :=
  ⟨fun h => by simpa using congrArg decode h, congrArg encode⟩

end Sys2Proof

namespace Sys2Proof.Machine

open Sys2Proof.Claims

theorem runOp_encode_next {i : Instr} {s t : State} :
    runOp (encode i) s = .next t ↔ ∃ u, exec i s.takeOp = .next u ∧ t = sequencerAfter i u := by
  simp [runOp_next]

/-! ### What the Sequencer does in each phase with operations (42 R121 to R125) -/

theorem sequencerAfter_requestPulseLow {s : State} (hp : s.fdPhase = .requestPulseLow) (i : Instr) :
    sequencerAfter i s = afterInLow i s := by
  simp [sequencerAfter, hp]

theorem sequencerAfter_requestPulseRelease {s : State} (hp : s.fdPhase = .requestPulseRelease) (i : Instr) :
    sequencerAfter i s = afterInRelease i s := by
  simp [sequencerAfter, hp]

theorem sequencerAfter_awaitResponseLow {s : State} (hp : s.fdPhase = .awaitResponseLow) (l : Level) (T : U32) :
    sequencerAfter (.measureWhile l T) s = unlessTimedOut s (s.enter .awaitResponseHigh) := by
  simp [sequencerAfter, hp, afterMeasuring]

theorem sequencerAfter_awaitResponseHigh {s : State} (hp : s.fdPhase = .awaitResponseHigh) (l : Level) (T : U32) :
    sequencerAfter (.measureWhile l T) s = unlessTimedOut s ({ s with fdBitidx := 0#6 }.enter .bitLoopLow) := by
  simp [sequencerAfter, hp, afterMeasuring]

theorem sequencerAfter_bitLoopLow {s : State} (hp : s.fdPhase = .bitLoopLow) (l : Level) (T : U32) :
    sequencerAfter (.measureWhile l T) s = unlessTimedOut s (s.enter .bitLoopHigh) := by
  simp [sequencerAfter, hp, afterMeasuring]

theorem sequencerAfter_bitLoopHigh {s : State} (hp : s.fdPhase = .bitLoopHigh) (l : Level) (T : U32) :
    sequencerAfter (.measureWhile l T) s = unlessTimedOut s (appendBit s) := by
  simp [sequencerAfter, hp, afterMeasuring]

/-! ### The five operations of the request pulse (42 R121) -/

theorem runOp_driveLow {s : State} (hp : s.fdPhase = .requestPulseLow) :
    runOp (encode .driveLow) s = .next
      { s with ldMode := .outLow, fdOwner := .driving, op := some (encode (.delay s.cfg.tStartUs)), resp := .none } := by
  rw [runOp_of_decode (decode_encode _)]
  exact congrArg Host.Outcome.next (sequencerAfter_requestPulseLow (by exact hp) .driveLow)

theorem runOp_delay_requestPulseLow {s : State} (hp : s.fdPhase = .requestPulseLow) (n : U32) :
    runOp (encode (.delay n)) s = .next
      { s with dlCount := 0#32, fdPhase := .requestPulseRelease, op := some (encode .releaseHigh), resp := .none,
               now := s.now + n.toNat } := by
  rw [runOp_of_decode (decode_encode _)]
  exact congrArg Host.Outcome.next (sequencerAfter_requestPulseLow (by exact hp) (.delay n))

theorem runOp_releaseHigh {s : State} (hp : s.fdPhase = .requestPulseRelease) :
    runOp (encode .releaseHigh) s = .next
      { s with ldMode := .outHigh, op := some (encode (.delay s.cfg.tReleaseUs)), resp := .none } := by
  rw [runOp_of_decode (decode_encode _)]
  exact congrArg Host.Outcome.next (sequencerAfter_requestPulseRelease (by exact hp) .releaseHigh)

theorem runOp_delay_requestPulseRelease {s : State} (hp : s.fdPhase = .requestPulseRelease) (n : U32) :
    runOp (encode (.delay n)) s = .next
      { s with dlCount := 0#32, op := some (encode .switchToInput), resp := .none, now := s.now + n.toNat } := by
  rw [runOp_of_decode (decode_encode _)]
  exact congrArg Host.Outcome.next (sequencerAfter_requestPulseRelease (by exact hp) (.delay n))

theorem runOp_switchToInput {s : State} (hp : s.fdPhase = .requestPulseRelease) :
    runOp (encode .switchToInput) s = .next
      { s with ldMode := .input, fdOwner := .listening, fdPhase := .awaitResponseLow,
               op := some (encode (.measureWhile .low s.cfg.toAckLowUs)), resp := .none } := by
  rw [runOp_of_decode (decode_encode _)]
  exact congrArg Host.Outcome.next (sequencerAfter_requestPulseRelease (by exact hp) .switchToInput)

/-! ### The frame (42 R125, R128, R132) -/

theorem toNat_shiftIn (b : Byte) (x : Bool) : (shiftIn b x).toNat = (2 * b.toNat + x.toNat) % 256 := by
  have hdisj : (b <<< 1) &&& (BitVec.ofBool x).zeroExtend 8 = 0#8 := by
    ext i hi
    cases x <;> simp; omega
  rw [shiftIn, ← BitVec.add_eq_or_of_and_eq_zero _ _ hdisj]
  cases x <;> simp [BitVec.toNat_add] <;> omega

theorem append_eq_withByte (f : Frame) {n : Nat} (hn : n < 40) (b : Bool) :
    f.append n b = withByte f (n / 8) (shiftIn (byteAt f (n / 8)) b) := by
  unfold Frame.append
  obtain h | h | h | h | h : n / 8 = 0 ∨ n / 8 = 1 ∨ n / 8 = 2 ∨ n / 8 = 3 ∨ n / 8 = 4 := by omega
  all_goals rw [h]; rfl

theorem byteAt_withByte (f : Frame) {i k : Nat} (hi : i < 5) (hk : k < 5) (b : Byte) :
    byteAt (withByte f k b) i = if i = k then b else byteAt f i := by
  interval_cases i <;> interval_cases k <;> rfl

/-- 42 R128: a magnitude below 0x8000 with a sign is never 0x8000. -/
theorem temp16_ne (f : Frame) : f.temp16 ≠ 0x8000#16 := by
  have hmag := f.mag15.isLt
  unfold Frame.temp16
  rw [ne_eq, ← BitVec.toNat_inj]
  split <;> simp <;> omega

/-! ### Reset (10 R38, 70 R180) -/

/-- Resetting once more at a tick changes nothing: what a reset keeps, the reset before it has kept. -/
@[simp] theorem resetAt_resetAt (s : State) (r t : Nat) : (s.resetAt r).resetAt t = s.resetAt t := rfl

theorem resetValues_resetAt (s : State) (t : Nat) : ResetValues (s.resetAt t) := by
  simp [ResetValues, Frame.zero]

theorem runOp_or_runPhase_world {s t : State}
    (h : (∃ w, s.op = some w ∧ runOp w s = .next t) ∨ (s.op = none ∧ runPhase s = .next t)) :
    t.cfg = s.cfg ∧ t.env = s.env ∧ s.now ≤ t.now := by
  obtain ⟨w, -, hop⟩ | ⟨-, hphase⟩ := h
  · exact runOp_next_world hop
  · exact runPhase_next_world hphase

end Sys2Proof.Machine

namespace Sys2Proof.Safety

open Sys2Proof.Machine Sys2Proof.Claims

theorem resetHolds_resetAt (s : State) (t : Nat) : ResetHolds (s.resetAt t) :=
  fun _ => (resetAt_resetAt s t t).symm

/-- A step that starts without reset and passes no reset tick ends at none. -/
theorem resetHolds_orReset {s u : State} (hrst : s.env.rstAt s.now = false) (henv : u.env = s.env)
    (hnow : s.now ≤ u.now) : ResetHolds (s.orReset u) := by
  obtain ⟨heq, hnone⟩ | ⟨r, -, -, -, heq, -⟩ := orReset_cases s u
  · rw [heq]
    intro hend
    rw [henv] at hend
    obtain hlt | hsame := hnow.lt_or_eq
    · exact absurd (hnone _ (rstAt_iff.mp hend) hlt) (lt_irrefl _)
    · rw [← hsame, hrst] at hend
      cases hend
  · exact heq ▸ resetHolds_resetAt s r

theorem step_resetHolds {s t : State} (h : step s = .next t) : ResetHolds t := by
  obtain ⟨-, rfl⟩ | ⟨hrst, u, rfl, hrun⟩ := step_next.mp h
  · exact resetHolds_resetAt s _
  · obtain ⟨-, henv, hnow⟩ := runOp_or_runPhase_world hrun
    exact resetHolds_orReset hrst henv hnow

/-! ### The clauses of the invariant about the op word (30 R86) -/

theorem opFits_idle {s : State} (hp : s.fdPhase = .idle) : OpFits s ↔ s.op = none ∧ s.ldMode = .input := by
  simp [OpFits, hp]

theorem opFits_requestPulseLow {s : State} (hp : s.fdPhase = .requestPulseLow) :
    OpFits s ↔ (s.op = some (encode .driveLow) ∧ s.ldMode = .input) ∨
      (s.op = some (encode (.delay s.cfg.tStartUs)) ∧ s.ldMode = .outLow) := by
  simp [OpFits, hp]

theorem opFits_requestPulseRelease {s : State} (hp : s.fdPhase = .requestPulseRelease) :
    OpFits s ↔ (s.op = some (encode .releaseHigh) ∧ s.ldMode = .outLow) ∨
      (s.op = some (encode (.delay s.cfg.tReleaseUs)) ∧ s.ldMode = .outHigh) ∨
      (s.op = some (encode .switchToInput) ∧ s.ldMode = .outHigh) := by
  simp [OpFits, hp]

/-- A phase that listens has at most the one operation it begins with. -/
theorem opFits_listens {s : State} (hp : listens s.fdPhase = true) :
    OpFits s ↔ s.op = (firstOp s.cfg s.fdPhase).map encode := by
  unfold OpFits
  cases h : s.fdPhase <;> simp_all [listens, firstOp]

/-! ### The clauses of the invariant about the bit counter and the frame (10 R37(c), 42 R125) -/

/-- The clauses of `Invariant` about the number `n` of bits decoded, for a phase and a frame. -/
structure BitsFit (p : Phase) (n : Nat) (f : Frame) : Prop where
  le : n ≤ 40
  pos : 0 < n → afterFirstBit p = true
  loop : p = .bitLoopLow ∨ p = .bitLoopHigh → n < 40
  full : p = .validate ∨ p = .convert → n = 40
  filled : ∀ i < 5, (byteAt f i).toNat < 2 ^ bitsInByte n i

theorem filled_iff {f : Frame} {n : Nat} :
    (∀ i < 5, (byteAt f i).toNat < 2 ^ bitsInByte n i) ↔
      f.byte0.toNat < 2 ^ bitsInByte n 0 ∧ f.byte1.toNat < 2 ^ bitsInByte n 1 ∧ f.byte2.toNat < 2 ^ bitsInByte n 2 ∧
      f.byte3.toNat < 2 ^ bitsInByte n 3 ∧ f.byte4.toNat < 2 ^ bitsInByte n 4 := by
  constructor
  · exact fun h => ⟨h 0 (by decide), h 1 (by decide), h 2 (by decide), h 3 (by decide), h 4 (by decide)⟩
  · rintro ⟨h0, h1, h2, h3, h4⟩ i hi
    interval_cases i <;> assumption

theorem Invariant.bitsFit {s : State} (h : Invariant s) : BitsFit s.fdPhase s.fdBitidx.toNat s.fdFrame :=
  ⟨h.bitidx_le, h.bitidx_pos, h.bitidx_loop, h.bitidx_full, filled_iff.mpr h.frame_filled⟩

/-- One more bit in byte `n div 8`, the other bytes unchanged. -/
theorem filled_append {f : Frame} {n : Nat} (hn : n < 40) (h : ∀ i < 5, (byteAt f i).toNat < 2 ^ bitsInByte n i)
    (b : Bool) : ∀ i < 5, (byteAt (f.append n b) i).toNat < 2 ^ bitsInByte (n + 1) i := by
  intro i hi
  have hbyte := h i hi
  rw [append_eq_withByte f hn, byteAt_withByte _ hi (by omega)]
  split
  case isTrue hin =>
    have hbits : bitsInByte (n + 1) i = bitsInByte n i + 1 := by unfold bitsInByte; omega
    have hmod := Nat.mod_le (2 * (byteAt f i).toNat + b.toNat) 256
    have hb := b.toNat_le
    rw [← hin, toNat_shiftIn, hbits, Nat.pow_succ]
    omega
  case isFalse hin =>
    have hbits : bitsInByte (n + 1) i = bitsInByte n i := by unfold bitsInByte; omega
    rwa [hbits]

/-! ### The registers of a busy block (10 R29, R37) -/

theorem Invariant.busy {s : State} (h : Invariant s) (hp : s.fdPhase ≠ .idle) : s.resBusy = true := by
  simpa [h.idle_busy] using hp

/-- A busy block shows no outcome. -/
theorem Invariant.no_outcome {s : State} (h : Invariant s) (hp : s.fdPhase ≠ .idle) :
    s.resDone = false ∧ s.resValid = false ∧ s.resErr = .none := by
  have hdone := h.busy_not_done (h.busy hp)
  refine ⟨hdone, ?_, ?_⟩
  · by_contra hvalid
    simpa [hdone] using h.valid_ok (by simpa using hvalid)
  · by_contra herr
    simpa [hdone] using h.err_done herr

theorem Invariant.bitidx_zero {s : State} (h : Invariant s) (hp : afterFirstBit s.fdPhase = false) :
    s.fdBitidx = 0#6 := by
  have hpos := h.bitidx_pos
  rw [hp] at hpos
  exact BitVec.eq_of_toNat_eq (by simpa using hpos)

/-! ### Reset and the phases without an operation keep the invariant -/

theorem invariant_resetAt (s : State) (t : Nat) : Invariant (s.resetAt t) := by
  constructor
  case op_fits => exact (opFits_idle rfl).mpr ⟨rfl, rfl⟩
  all_goals simp [listens, Frame.zero]

theorem Invariant.idleTick {s : State} (h : Invariant s) (hp : s.fdPhase = .idle) : Invariant s.idleTick :=
  { h with busy_polled := by simp [h.idle_busy.mp hp] }

theorem Invariant.acceptRead {s : State} (h : Invariant s) (hb : s.resBusy = false) : Invariant s.acceptRead := by
  obtain ⟨-, hmode⟩ := (opFits_idle (h.idle_busy.mpr hb)).mp h.op_fits
  exact { owner_mode := h.owner_mode, meas_le := h.meas_le, delay_done := h.delay_done
          op_fits := (opFits_requestPulseLow rfl).mpr (.inl ⟨rfl, hmode⟩)
          idle_busy := by simp, bitidx_le := by simp, bitidx_pos := by simp, bitidx_loop := by simp
          bitidx_full := by simp, listens_input := by simp [listens], busy_not_done := by simp
          valid_ok := by simp, err_done := by simp, done_outcome := by simp, no_reading := by simp
          temp_range := by simp, frame_filled := by simp [Frame.zero], busy_polled := by simp }

theorem ne_idle_of_listens {p : Phase} (hp : listens p = true) : p ≠ .idle := by
  rintro rfl
  cases hp

/-- A listening phase ends the read, with a reading or with an error (30 R80). -/
theorem Invariant.end_read {s : State} (h : Invariant s) (hp : listens s.fdPhase = true) {valid : Bool} {err : ErrKind}
    {hum temp : BitVec 16} (hone : valid = true ↔ err = .none) (hnone : valid = false → hum = 0#16 ∧ temp = 0#16)
    (htemp : temp ≠ 0x8000#16) :
    Invariant { s with resValid := valid, resErr := err, resHum := hum, resTemp := temp, resBusy := false,
                       resDone := true, fdPhase := .idle, op := none } :=
  { h with
    idle_busy := by simp, bitidx_pos := fun _ => rfl, bitidx_loop := by simp, bitidx_full := by simp
    listens_input := fun _ => h.listens_input hp
    op_fits := (opFits_idle rfl).mpr ⟨rfl, h.listens_input hp⟩
    busy_not_done := nofun, busy_polled := nofun
    valid_ok := fun hv => ⟨hone.mp hv, rfl⟩
    err_done := fun he => ⟨by simpa using mt hone.mp he, rfl⟩
    done_outcome := fun _ => hone.mpr
    no_reading := hnone, temp_range := htemp }

/-- 60 R155 -/
theorem Invariant.abort {s : State} (h : Invariant s) (hp : listens s.fdPhase = true) {k : ErrKind} (hk : k ≠ .none) :
    Invariant (s.abort k) := by
  obtain ⟨-, hvalid, -⟩ := h.no_outcome (ne_idle_of_listens hp)
  exact h.end_read hp (by simp [hvalid, hk]) h.no_reading h.temp_range

/-- 42 R128, R129 -/
theorem Invariant.returnOk {s : State} (h : Invariant s) (hp : listens s.fdPhase = true) (hum : BitVec 16)
    {temp : BitVec 16} (ht : temp ≠ 0x8000#16) : Invariant (s.returnOk hum temp) := by
  obtain ⟨-, -, herr⟩ := h.no_outcome (ne_idle_of_listens hp)
  exact h.end_read hp (by simp [herr]) nofun ht

/-- A listening phase enters a listening phase, the bit counter and the frame as the new phase needs them. -/
theorem Invariant.enter {s : State} (h : Invariant s) (hs : listens s.fdPhase = true) {p : Phase}
    (hp : listens p = true) {n : BitVec 6} {f : Frame} (hbits : BitsFit p n.toNat f) :
    Invariant (State.enter p { s with fdBitidx := n, fdFrame := f }) :=
  { h with
    idle_busy := by simp [h.busy (ne_idle_of_listens hs), ne_idle_of_listens hp]
    bitidx_le := hbits.le, bitidx_pos := hbits.pos, bitidx_loop := hbits.loop, bitidx_full := hbits.full
    frame_filled := filled_iff.mp hbits.filled
    listens_input := fun _ => h.listens_input hs
    op_fits := (opFits_listens hp).mpr rfl }

/-- `Invariant.enter` with the bit counter and the frame as they are. -/
theorem Invariant.enter_same {s : State} (h : Invariant s) (hs : listens s.fdPhase = true) {p : Phase}
    (hp : listens p = true) (hbits : BitsFit p s.fdBitidx.toNat s.fdFrame) : Invariant (s.enter p) :=
  h.enter hs hp hbits

theorem Invariant.validate {s : State} (h : Invariant s) (hp : s.fdPhase = .validate) :
    Invariant (Machine.validate s) := by
  have hl : listens s.fdPhase = true := by rw [hp]; rfl
  have hfull := h.bitidx_full (.inl hp)
  unfold Machine.validate
  split
  · exact h.enter_same hl rfl { h.bitsFit with pos := fun _ => rfl, loop := by simp, full := fun _ => hfull }
  · exact h.abort hl (by simp)

/-! ### The phases that measure keep the invariant (42 R122 to R125) -/

theorem Invariant.finishMeasurement {s : State} (h : Invariant s) (l : Level) (T : U32) :
    Invariant (finishMeasurement l T (measured s l T) s) :=
  { h with
    meas_le := by
      obtain ⟨d, hm, hle, -⟩ | ⟨hm, -⟩ := measured_cases s l T
      · have hlt : d < 4294967296 := by have := T.isLt; omega
        simpa [hm, measurementOf, BitVec.le_def, Nat.mod_eq_of_lt hlt] using hle
      · simp [hm, measurementOf] }

theorem Invariant.unlessTimedOut {s t : State} (h : Invariant s) (hs : listens s.fdPhase = true) (ht : Invariant t) :
    Invariant (unlessTimedOut s.takeOp t) := by
  obtain ⟨-, heq⟩ | ⟨-, heq⟩ := unlessTimedOut_cases s.takeOp t
  · rw [heq]
    exact h.abort hs (by simp)
  · rwa [heq]

/-- 42 R125: the bit is appended and counted, and the 40th ends the loop. -/
theorem Invariant.appendBit {s : State} (h : Invariant s) (hp : s.fdPhase = .bitLoopHigh) :
    Invariant (appendBit s) := by
  have hlt := h.bitidx_loop (.inr hp)
  have hn : (s.fdBitidx + 1#6).toNat = s.fdBitidx.toNat + 1 := by simp [BitVec.toNat_add]; omega
  have hfilled := filled_append hlt h.bitsFit.filled (decodedBit s.ptMeas.durationUs s.cfg.bitThresholdUs)
  have hlast : s.fdBitidx + 1#6 = BitVec.ofNat 6 Config.nBits ↔ s.fdBitidx.toNat + 1 = 40 := by
    rw [← hn, ← BitVec.toNat_inj]; rfl
  rw [← hn] at hfilled hlast
  unfold Machine.appendBit
  refine h.enter (by rw [hp]; rfl) (by split <;> rfl)
    { le := by omega, pos := fun _ => by split <;> rfl, loop := fun hloop => ?_, full := fun hfull => ?_, filled := hfilled }
  · have := mt hlast.mpr (by rintro heq; simp [heq] at hloop)
    omega
  · split at hfull
    · exact hlast.mp ‹_›
    · simp at hfull

/-- In a listening phase the only operation is the measurement it begins with; Validate and Convert have none. -/
theorem Invariant.op_listens {s : State} (h : Invariant s) (hl : listens s.fdPhase = true) {w : OpWord}
    (hop : s.op = some w) :
    (∃ l T, w = encode (.measureWhile l T)) ∧
      (s.fdPhase = .awaitResponseLow ∨ s.fdPhase = .awaitResponseHigh ∨ s.fdPhase = .bitLoopLow ∨
        s.fdPhase = .bitLoopHigh) := by
  have hfit := (opFits_listens hl).mp h.op_fits
  rw [hop] at hfit
  cases hp : s.fdPhase <;> rw [hp] at hl hfit <;> cases hl <;> cases hfit
  all_goals exact ⟨⟨_, _, rfl⟩, by simp⟩

/-- The measurement of a phase has completed: the Sequencer goes on, or the read is aborted. -/
theorem Invariant.after_measureWhile {s : State} (h : Invariant s) (l : Level) (T : U32)
    (hm : s.fdPhase = .awaitResponseLow ∨ s.fdPhase = .awaitResponseHigh ∨ s.fdPhase = .bitLoopLow ∨
      s.fdPhase = .bitLoopHigh) : Invariant (sequencerAfter (.measureWhile l T) s.takeOp) := by
  have hl : listens s.fdPhase = true := by obtain hp | hp | hp | hp := hm <;> rw [hp] <;> rfl
  have hbits := h.bitsFit
  obtain hp | hp | hp | hp := hm
  · rw [sequencerAfter_awaitResponseLow (s := s.takeOp) hp]
    have hzero := h.bitidx_zero (by rw [hp]; rfl)
    exact h.unlessTimedOut hl (h.enter_same hl rfl
      { hbits with pos := by simp [hzero], loop := by simp, full := by simp })
  · rw [sequencerAfter_awaitResponseHigh (s := s.takeOp) hp]
    have hzero := h.bitidx_zero (by rw [hp]; rfl)
    refine h.unlessTimedOut hl (h.enter hl rfl ⟨by simp, by simp, by simp, by simp, ?_⟩)
    exact hzero ▸ hbits.filled
  · rw [sequencerAfter_bitLoopLow (s := s.takeOp) hp]
    exact h.unlessTimedOut hl (h.enter_same hl rfl
      { hbits with pos := fun _ => rfl, loop := fun _ => hbits.loop (.inl hp), full := by simp })
  · rw [sequencerAfter_bitLoopHigh (s := s.takeOp) hp]
    exact h.unlessTimedOut hl (h.appendBit hp)

theorem Invariant.runOp_listens {s t : State} (h : Invariant s) (hl : listens s.fdPhase = true) {w : OpWord}
    (hop : s.op = some w) (hrun : runOp w s = .next t) : Invariant t := by
  obtain ⟨⟨l, T, rfl⟩, hm⟩ := h.op_listens hl hop
  obtain ⟨u, hexec, rfl⟩ := runOp_encode_next.mp hrun
  obtain ⟨-, rfl⟩ := execMeasureWhile_next.mp hexec
  exact (h.finishMeasurement l T).after_measureWhile l T hm

/-! ### The request pulse keeps the invariant (42 R121) -/

/-- An operation of the request pulse and the Sequencer write mode, owner, phase, op word, counter, response and time only. -/
theorem Invariant.in_pulse {s t : State} (h : Invariant s)
    (hs : s.fdPhase = .requestPulseLow ∨ s.fdPhase = .requestPulseRelease)
    {m : DriveMode} {o : Owner} {p : Phase} {op : Option OpWord} {c : U32} {now : Nat}
    (ht : t = { s with ldMode := m, fdOwner := o, fdPhase := p, op := op, dlCount := c, resp := .none, now := now })
    (hp : p = .requestPulseLow ∨ p = .requestPulseRelease ∨ p = .awaitResponseLow ∧ m = .input)
    (howner : o = .driving ↔ m ≠ .input) (hc : c = 0#32) (hfit : OpFits t) : Invariant t := by
  have hbusy := h.busy (by obtain hs | hs := hs <;> simp [hs])
  have hzero := h.bitidx_zero (by obtain hs | hs := hs <;> rw [hs] <;> rfl)
  subst ht
  exact { h with
    op_fits := hfit, owner_mode := howner, delay_done := hc
    idle_busy := by obtain rfl | rfl | ⟨rfl, -⟩ := hp <;> simp [hbusy]
    bitidx_pos := by simp [hzero], bitidx_loop := by simp [hzero]
    bitidx_full := by obtain rfl | rfl | ⟨rfl, -⟩ := hp <;> simp
    listens_input := by obtain rfl | rfl | ⟨rfl, hm⟩ := hp <;> simp [listens, *] }

theorem Invariant.runOp_requestPulseLow {s t : State} (h : Invariant s) (hp : s.fdPhase = .requestPulseLow)
    {w : OpWord} (hop : s.op = some w) (hrun : runOp w s = .next t) : Invariant t := by
  obtain ⟨hword, hmode⟩ | ⟨hword, hmode⟩ := (opFits_requestPulseLow hp).mp h.op_fits <;> cases hop.symm.trans hword
  · cases (runOp_driveLow hp).symm.trans hrun
    exact h.in_pulse (.inl hp) rfl (.inl hp) (by simp) h.delay_done
      ((opFits_requestPulseLow (by exact hp)).mpr (.inr ⟨rfl, rfl⟩))
  · cases (runOp_delay_requestPulseLow hp _).symm.trans hrun
    exact h.in_pulse (.inl hp) rfl (.inr (.inl rfl)) h.owner_mode rfl
      ((opFits_requestPulseRelease rfl).mpr (.inl ⟨rfl, hmode⟩))

theorem Invariant.runOp_requestPulseRelease {s t : State} (h : Invariant s) (hp : s.fdPhase = .requestPulseRelease)
    {w : OpWord} (hop : s.op = some w) (hrun : runOp w s = .next t) : Invariant t := by
  obtain ⟨hword, hmode⟩ | ⟨hword, hmode⟩ | ⟨hword, hmode⟩ := (opFits_requestPulseRelease hp).mp h.op_fits <;>
    cases hop.symm.trans hword
  · cases (runOp_releaseHigh hp).symm.trans hrun
    exact h.in_pulse (.inr hp) rfl (.inr (.inl hp)) (by simp [h.owner_mode, hmode]) h.delay_done
      ((opFits_requestPulseRelease (by exact hp)).mpr (.inr (.inl ⟨rfl, rfl⟩)))
  · cases (runOp_delay_requestPulseRelease hp _).symm.trans hrun
    exact h.in_pulse (.inr hp) rfl (.inr (.inl hp)) h.owner_mode rfl
      ((opFits_requestPulseRelease (by exact hp)).mpr (.inr (.inr ⟨rfl, hmode⟩)))
  · cases (runOp_switchToInput hp).symm.trans hrun
    exact h.in_pulse (.inr hp) rfl (.inr (.inr ⟨rfl, rfl⟩)) (by simp) h.delay_done ((opFits_listens rfl).mpr rfl)

/-! ### Every step keeps the invariant -/

theorem Invariant.runOp {s t : State} (h : Invariant s) {w : OpWord} (hop : s.op = some w)
    (hrun : Machine.runOp w s = .next t) : Invariant t := by
  cases hp : s.fdPhase
  case idle => simp [((opFits_idle hp).mp h.op_fits).1] at hop
  case requestPulseLow => exact h.runOp_requestPulseLow hp hop hrun
  case requestPulseRelease => exact h.runOp_requestPulseRelease hp hop hrun
  all_goals exact h.runOp_listens (by rw [hp]; rfl) hop hrun

/-- Only Idle, Validate and Convert leave the operation interface empty (30 R86). -/
theorem Invariant.phase_of_no_op {s : State} (h : Invariant s) (hop : s.op = none) :
    s.fdPhase = .idle ∨ s.fdPhase = .validate ∨ s.fdPhase = .convert := by
  have hfit := h.op_fits
  unfold OpFits at hfit
  cases hp : s.fdPhase <;> simp_all

theorem Invariant.runPhase {s t : State} (h : Invariant s) (hop : s.op = none) (hrun : Machine.runPhase s = .next t) :
    Invariant t := by
  obtain ⟨-, -, hread⟩ | ⟨hp, -, rfl⟩ | ⟨hp, rfl⟩ | ⟨hp, -, rfl⟩ | ⟨hidle, hval, hconv, -⟩ := runPhase_next.mp hrun
  · obtain ⟨hb, rfl⟩ | ⟨-, rfl⟩ := execRead_next.mp hread
    · exact h.acceptRead hb
    · exact h
  · exact h.idleTick hp
  · exact h.validate hp
  · exact h.returnOk (by rw [hp]; rfl) _ (temp16_ne s.fdFrame)
  · exact absurd (h.phase_of_no_op hop) (by simp [hidle, hval, hconv])

theorem Invariant.step {s t : State} (h : Invariant s) (hstep : Machine.step s = .next t) : Invariant t := by
  obtain ⟨-, rfl⟩ | ⟨-, u, rfl, hrun⟩ := step_next.mp hstep
  · exact invariant_resetAt s _
  · obtain ⟨heq, -⟩ | ⟨r, -, -, -, heq, -⟩ := orReset_cases s u <;> rw [heq]
    · obtain ⟨w, hop, hrun⟩ | ⟨hop, hrun⟩ := hrun
      · exact h.runOp hop hrun
      · exact h.runPhase hop hrun
    · exact invariant_resetAt s r

/-! ### The owner of the line (10 R37(a), R37(d), 42 R136) -/

theorem Invariant.listening_of_input {s : State} (h : Invariant s) (hm : s.ldMode = .input) :
    s.fdOwner = .listening ∧ s.linePullLow = false := by
  have howner := h.owner_mode
  cases ho : s.fdOwner <;> simp_all [State.linePullLow]

/-- Outside input mode the phase is one of the request pulse. -/
theorem Invariant.requestPulse_of_not_input {s : State} (h : Invariant s) (hm : s.ldMode ≠ .input) :
    s.fdPhase = .requestPulseLow ∨ s.fdPhase = .requestPulseRelease := by
  have hlistens := mt h.listens_input hm
  cases hp : s.fdPhase
  case idle => exact absurd ((opFits_idle hp).mp h.op_fits).2 hm
  case requestPulseLow => exact .inl rfl
  case requestPulseRelease => exact .inr rfl
  all_goals exact absurd (by rw [hp]; rfl) hlistens

/-- A measurement stands on the operation interface in input mode only. -/
theorem Invariant.input_of_measureWhile {s : State} (h : Invariant s) {l : Level} {T : U32}
    (hop : s.op = some (encode (.measureWhile l T))) : s.ldMode = .input := by
  by_contra hm
  obtain hp | hp := h.requestPulse_of_not_input hm
  · simpa [hop, encode_inj] using (opFits_requestPulseLow hp).mp h.op_fits
  · simpa [hop, encode_inj] using (opFits_requestPulseRelease hp).mp h.op_fits

end Sys2Proof.Safety

namespace Sys2Proof.Proofs

open Sys2Proof.Machine Sys2Proof.Safety

/-- Settles O31: the reset state is what a reset leaves of itself at tick 0. -/
theorem resetStateHasTheTablesValues : Obligations.ResetStateHasTheTablesValues :=
  ⟨resetValues_resetAt State.reset 0, fun s t => ⟨resetValues_resetAt s t, rfl⟩⟩

/-- Settles O32, as a case of the invariant after any reset. -/
theorem resetStateMeetsTheInvariant : Obligations.ResetStateMeetsTheInvariant :=
  invariant_resetAt State.reset 0

/-- Settles O33, by the phase and the word that stands on the operation interface in it. -/
theorem stepKeepsTheInvariant : Obligations.StepKeepsTheInvariant :=
  fun _ _ h hstep => h.step hstep

/-- Settles O34: a step that no reset touches ends at a tick without reset, any other in a state reset has left. -/
theorem resetHoldsAtEveryTick : Obligations.ResetHoldsAtEveryTick :=
  fun _ _ h => step_resetHolds h

/-- Settles O38: the mode decides, being `OutLow` only while the block drives and `Input` wherever it listens. -/
theorem ownershipAlternates : Obligations.OwnershipAlternates := by
  refine fun s h => ⟨fun hpull => ?_, fun l T hop => h.listening_of_input (h.input_of_measureWhile hop), fun hp => ?_⟩
  · have hm : s.ldMode ≠ .input := by simp [of_decide_eq_true hpull]
    exact ⟨h.owner_mode.mpr hm, h.requestPulse_of_not_input hm⟩
  · exact h.listening_of_input ((opFits_idle hp).mp h.op_fits).2

end Sys2Proof.Proofs

/-! PROOFS. The family of 20_memory: the level of the line and the ports (O7), and the order in which the bits of a frame
arrive (O29). -/

namespace Sys2Proof.Machine

open Sys2Proof.Claims Sys2Proof.Safety

/-! ### The line as a wired AND (20 R51) -/

theorem lineAt_eq_low {s : State} {t : Nat} : s.lineAt t = .low ↔ s.ldMode = .outLow ∨ s.env.sensorLow t = true := by
  unfold State.lineAt lineLevel
  split
  case isTrue h => exact iff_of_true rfl h
  case isFalse h => exact iff_of_false (by decide) h

theorem lineAt_eq_high {s : State} {t : Nat} : s.lineAt t = .high ↔ s.ldMode ≠ .outLow ∧ s.env.sensorLow t = false := by
  rw [← Bool.not_eq_true, ← not_or, ← lineAt_eq_low]
  cases s.lineAt t <;> simp

/-! ### The bits of a frame (20 R53) -/

/-- Shifting a bit in moves every bit of the byte one place up. -/
theorem getLsbD_shiftIn (b : Byte) (x : Bool) (j : Nat) :
    (shiftIn b x).getLsbD j = if j = 0 then x else decide (j < 8) && b.getLsbD (j - 1) := by
  cases j <;> simp [shiftIn]

/-- Frame `f` holds the first `n` of `bits`: byte `i` has its last bit to arrive at bit 0, the earlier ones above it, and
zeros above those. -/
def HoldsBits (bits : Nat → Bool) (n : Nat) (f : Frame) : Prop :=
  ∀ i < 5, ∀ j, (byteAt f i).getLsbD j = (decide (j < bitsInByte n i) && bits (8 * i + (bitsInByte n i - 1 - j)))

theorem holdsBits_zero (bits : Nat → Bool) : HoldsBits bits 0 Frame.zero := by
  intro i hi j
  have hbyte : byteAt Frame.zero i = 0#8 := by interval_cases i <;> rfl
  simp [hbyte, bitsInByte]

theorem HoldsBits.append {bits : Nat → Bool} {n : Nat} {f : Frame} (h : HoldsBits bits n f) (hn : n < 40) :
    HoldsBits bits (n + 1) (f.append n (bits n)) := by
  intro i hi j
  rw [append_eq_withByte f hn, byteAt_withByte _ hi (by omega)]
  split
  case isTrue hin =>
    subst hin
    have hbits : bitsInByte n (n / 8) = n % 8 := by unfold bitsInByte; omega
    have hbits' : bitsInByte (n + 1) (n / 8) = n % 8 + 1 := by unfold bitsInByte; omega
    rw [getLsbD_shiftIn, h _ hi, hbits, hbits']
    cases j with
    | zero => simp [Nat.div_add_mod]
    | succ j =>
      have hindex : n % 8 - 1 - j = n % 8 + 1 - 1 - (j + 1) := by omega
      have hlt : j + 1 < 8 ∧ j < n % 8 ↔ j + 1 < n % 8 + 1 := by omega
      simp [hindex, ← Bool.and_assoc, ← Bool.decide_and, hlt]
  case isFalse hin =>
    have hbits : bitsInByte (n + 1) i = bitsInByte n i := by unfold bitsInByte; omega
    rw [h i hi, hbits]

theorem holdsBits_foldl_append (bits : Nat → Bool) {n : Nat} (hn : n ≤ 40) :
    HoldsBits bits n ((List.range n).foldl (fun f k => f.append k (bits k)) Frame.zero) := by
  induction n with
  | zero => exact holdsBits_zero bits
  | succ n ih =>
    rw [List.range_succ, List.foldl_append]
    exact (ih (by omega)).append hn

theorem HoldsBits.frameBit_eq {bits : Nat → Bool} {f : Frame} (h : HoldsBits bits 40 f) {n : Nat} (hn : n < 40) :
    frameBit f n = bits n := by
  have hbits : bitsInByte 40 (n / 8) = 8 := by unfold bitsInByte; omega
  have hindex : 8 * (n / 8) + (8 - 1 - (7 - n % 8)) = n := by omega
  have hlt : 7 - n % 8 < 8 := by omega
  rw [frameBit, h _ (by omega), hbits, hindex, decide_eq_true hlt, Bool.true_and]

end Sys2Proof.Machine

namespace Sys2Proof.Proofs

open Sys2Proof.Machine

/-- Settles O7: the line by the two sides of the wired AND, the ports by their registers. -/
theorem lineIsWiredAnd : Obligations.LineIsWiredAnd := by
  intro s
  refine ⟨fun t => ⟨lineAt_eq_low, lineAt_eq_high, ?_⟩, decide_eq_true_iff, rfl, lineAt_eq_low, rfl⟩
  simp [State.lineAt]

/-- Settles O29, by induction on the number of bits that have arrived. -/
theorem frameBitsArriveMostSignificantFirst : Obligations.FrameBitsArriveMostSignificantFirst :=
  fun bits _ hn => (holdsBits_foldl_append bits le_rfl).frameBit_eq hn

end Sys2Proof.Proofs

/-! PROOFS. The family of 30_encoding: op words and operations (O1 to O5), the codes of the small enumerations (O6), what an idle
block does with `cmd` (O19), the decoded bit (O28), the result ports (O39), and the words of a read (O41). -/

namespace Sys2Proof

/-! ### The operation of a word and the word of an operation (30 R77, R78) -/

/-- Fields decoded as an operation without operands are the fields of that operation. -/
theorem fields_of_decodeBare {f : OpFields} {i j : Instr} {u : BitVec 3} (h : decodeBare f j = .ok i)
    (huop : f.uop = u) (hj : encodeFields j = ⟨u, 0#1, 0#32⟩) : f = encodeFields i := by
  obtain ⟨hlevel, himm, rfl⟩ := decodeBare_ok.mp h
  rw [hj, ← huop, ← hlevel, ← himm]

/-- Each row of the map accepts the fields of its own operations and no others. -/
theorem decodeFields_eq_ok {f : OpFields} {i : Instr} : decodeFields f = .ok i ↔ f = encodeFields i := by
  refine ⟨fun h => ?_, by rintro rfl; exact decodeFields_encodeFields i⟩
  unfold decodeFields at h
  split_ifs at h with hlow hrelease hinput hlevel hmeasure hdelay hzero hread
  · exact fields_of_decodeBare h hlow rfl
  · exact fields_of_decodeBare h hrelease rfl
  · exact fields_of_decodeBare h hinput rfl
  · exact fields_of_decodeBare h hlevel rfl
  · cases h
    rw [encodeFields, toBit_ofBit, ← hmeasure]
  · cases h
    rw [encodeFields, ← hdelay, ← not_not.mp hzero]
  · exact fields_of_decodeBare h hread rfl

theorem decode_eq_ok {w : OpWord} {i : Instr} : decode w = .ok i ↔ w = encode i := by
  rw [decode, decodeFields_eq_ok]
  exact ⟨fun h => by rw [encode, ← h, toWord_ofWord], by rintro rfl; exact ofWord_encode i⟩

/-! ### The reserved words (30 R81) -/

theorem decodeBare_error {f : OpFields} {i : Instr} :
    (∃ r, decodeBare f i = .error r) ↔ f.level ≠ 0#1 ∨ f.imm ≠ 0#32 := by
  unfold decodeBare
  by_cases hl : f.level = 0#1 <;> by_cases hi : f.imm = 0#32 <;> simp [hl, hi]

theorem uop_cases : ∀ u : BitVec 3, u = 0b000#3 ∨ u = 0b001#3 ∨ u = 0b010#3 ∨ u = 0b011#3 ∨ u = 0b100#3 ∨
    u = 0b101#3 ∨ u = 0b110#3 ∨ u = 0b111#3 := by
  decide

/-- The list of 30 R81, in the fields of the word. -/
theorem decodeFields_error {f : OpFields} : (∃ r, decodeFields f = .error r) ↔
    f.uop = 0b000#3 ∨
    (f.uop ∈ [0b001#3, 0b010#3, 0b011#3, 0b100#3, 0b111#3] ∧ (f.level ≠ 0#1 ∨ f.imm ≠ 0#32)) ∨
    (f.uop = 0b110#3 ∧ f.level ≠ 0#1) := by
  obtain hu | hu | hu | hu | hu | hu | hu | hu := uop_cases f.uop
  all_goals simp [decodeFields, hu, decodeBare_error, ite_eq_iff]

/-! ### The opcode map as match and mask (30 R78) -/

theorem word_eq_append (w : OpWord) : w = w.extractLsb' 33 3 ++ (w.extractLsb' 32 1 ++ w.extractLsb' 0 32) := by
  have hlow : w.extractLsb' 32 1 ++ w.extractLsb' 0 32 = w.extractLsb' 0 33 :=
    BitVec.extractLsb'_append_extractLsb'_eq_extractLsb' rfl
  rw [hlow]
  exact (BitVec.extractLsb'_append_extractLsb' (w := 3) (len := 33)).symm

theorem toWord_eq_append (f : OpFields) : f.toWord = f.uop ++ (f.level ++ f.imm) := by
  conv_rhs => rw [← ofWord_toWord f]
  exact word_eq_append f.toWord

/-- The words that begin with `u` are those in which `u` above zeros remains when the low `n` bits are masked away. -/
theorem exists_append_eq_iff_and {m n : Nat} (w : BitVec (m + n)) (u : BitVec m) :
    (∃ x : BitVec n, w = u ++ x) ↔ w &&& (BitVec.allOnes m ++ 0#n) = u ++ 0#n := by
  constructor
  · rintro ⟨x, rfl⟩
    simp
  · intro h
    rw [← BitVec.extractLsb'_append_extractLsb' (x := w), BitVec.and_append, BitVec.and_allOnes, BitVec.and_zero,
      BitVec.append_left_inj] at h
    exact ⟨_, by rw [← h, BitVec.extractLsb'_append_extractLsb']⟩

/-- A row without operands has one word, and its mask keeps every bit. -/
theorem decode_eq_ok_iff_and {w m : OpWord} {i : Instr} (h : encode i = m) :
    decode w = .ok i ↔ w &&& 0xFFFFFFFFF#36 = m := by
  rw [decode_eq_ok, h, show 0xFFFFFFFFF#36 = BitVec.allOnes 36 from rfl, BitVec.and_allOnes]

/-- The row of DELAY: `uop` and `level` are fixed, `imm` is any. -/
theorem decode_delay_iff_and {w : OpWord} :
    (∃ n, decode w = .ok (.delay n)) ↔ w &&& 0xF00000000#36 = 0xC00000000#36 := by
  have hword : ∀ n, encode (.delay n) = 0b1100#4 ++ n := fun n => by
    rw [encode, toWord_eq_append]
    exact (BitVec.append_assoc (x₁ := 0b110#3) (x₂ := 0#1)).symm
  simp_rw [decode_eq_ok, hword]
  exact exists_append_eq_iff_and (m := 4) (n := 32) w 0b1100#4

/-- The words of MEASURE_WHILE are those that begin with its `uop`. -/
theorem exists_encode_measureWhile_iff {w : OpWord} :
    (∃ l T, w = encode (.measureWhile l T)) ↔ ∃ x : BitVec 33, w = 0b101#3 ++ x := by
  constructor
  · rintro ⟨l, T, rfl⟩
    exact ⟨l.toBit ++ T, toWord_eq_append _⟩
  · rintro ⟨x, rfl⟩
    refine ⟨Level.ofBit (x.extractLsb' 32 1), x.extractLsb' 0 32, ?_⟩
    rw [encode, toWord_eq_append, encodeFields, toBit_ofBit]
    congr 1
    exact (BitVec.extractLsb'_append_extractLsb' (w := 1) (len := 32)).symm

/-- The row of MEASURE_WHILE: `uop` is fixed, `level` and `imm` are any. -/
theorem decode_measureWhile_iff_and {w : OpWord} :
    (∃ l T, decode w = .ok (.measureWhile l T)) ↔ w &&& 0xE00000000#36 = 0xA00000000#36 := by
  simp_rw [decode_eq_ok, exists_encode_measureWhile_iff]
  exact exists_append_eq_iff_and (m := 3) (n := 33) w 0b101#3

end Sys2Proof

namespace Sys2Proof.Machine

/-! ### The decoded bit (30 R71) -/

theorem decodedBit_iff {d threshold : U32} : decodedBit d threshold = true ↔ threshold.toNat < d.toNat :=
  decide_eq_true_iff.trans BitVec.lt_def

/-! ### A word on the host port and on the operation interface (30 R81, R82, 42 R131) -/

theorem hostIssuesRead_iff_encode {s : State} :
    s.hostIssuesRead = true ↔ s.polled = false ∧ s.resBusy = false ∧ s.env.cmdAt s.now = some (encode .read) := by
  simp [hostIssuesRead_iff, decode_eq_ok]

theorem runOp_of_decode_error {w : OpWord} {r : Reject} (h : decode w = .error r) (s : State) :
    runOp w s = .refused .reservedOpWord := by
  simp [runOp, h]

theorem step_of_no_op {s : State} (hrst : s.env.rstAt s.now = false) (hop : s.op = none) :
    step s = onNext s.orReset (runPhase s) := by
  simp [step, hrst, hop]

end Sys2Proof.Machine

namespace Sys2Proof.Safety

open Sys2Proof.Machine Sys2Proof.Config

/-! ### A step that no reset touches -/

theorem NoReset.rstAt_now {s : State} {b : Nat} (h : NoReset s s.now b) (hb : s.now ≤ b) :
    s.env.rstAt s.now = false := by
  rw [← Bool.not_eq_true, rstAt_iff]
  exact fun hmem => h s.now hmem ⟨le_rfl, hb⟩

/-- With no reset up to its end an operation or a computation has its own result. -/
theorem NoReset.orReset {s t : State} {b : Nat} (h : NoReset s s.now b) (hb : t.now ≤ b) : s.orReset t = t := by
  obtain ⟨heq, -⟩ | ⟨r, hmem, hlt, hle, -⟩ := orReset_cases s t
  · exact heq
  · exact absurd ⟨hlt.le, hle.trans hb⟩ (h r hmem)

section IdleBlock

variable {s : State} (hp : s.fdPhase = .idle) (hop : s.op = none) (hreset : NoReset s s.now (s.now + 1))
include hp hop hreset

theorem step_idle_accepts (hread : s.hostIssuesRead = true) : step s = exec .read s := by
  obtain ⟨-, hbusy, -⟩ := hostIssuesRead_iff.mp hread
  have hexec : execRead s = .next s.acceptRead := execRead_next.mpr (.inl ⟨hbusy, rfl⟩)
  rw [step_of_no_op (hreset.rstAt_now (by omega)) hop, runPhase_next.mpr (.inl ⟨hp, hread, hexec⟩), onNext_of_next,
    hreset.orReset (by simp)]
  exact hexec.symm

theorem step_idle_ignores (hread : s.hostIssuesRead = false) : step s = .next s.idleTick := by
  rw [step_of_no_op (hreset.rstAt_now (by omega)) hop, runPhase_next.mpr (.inr (.inl ⟨hp, hread, rfl⟩)), onNext_of_next,
    hreset.orReset (by simp)]

end IdleBlock

/-! ### The words issued and the ports shown -/

/-- Every word the Sequencer issues is the word of an operation (30 R86). -/
theorem Invariant.op_encode {s : State} (h : Invariant s) {w : OpWord} (hop : s.op = some w) :
    ∃ i, w = encode i := by
  have hissued : ∀ {i}, s.op = some (encode i) → ∃ i, w = encode i :=
    fun hi => ⟨_, Option.some.inj (hop.symm.trans hi)⟩
  cases hp : s.fdPhase
  case idle => simp [((opFits_idle hp).mp h.op_fits).1] at hop
  case requestPulseLow =>
    obtain ⟨hw, -⟩ | ⟨hw, -⟩ := (opFits_requestPulseLow hp).mp h.op_fits
    all_goals exact hissued hw
  case requestPulseRelease =>
    obtain ⟨hw, -⟩ | ⟨hw, -⟩ | ⟨hw, -⟩ := (opFits_requestPulseRelease hp).mp h.op_fits
    all_goals exact hissued hw
  all_goals
    obtain ⟨⟨l, T, hw⟩, -⟩ := h.op_listens (by rw [hp]; rfl) hop
    exact ⟨_, hw⟩

/-- An error leaves no data (30 R80). -/
theorem Invariant.no_data_of_err {s : State} (h : Invariant s) (herr : s.resErr ≠ .none) :
    s.resValid = false ∧ s.resHum = 0#16 ∧ s.resTemp = 0#16 := by
  obtain ⟨hvalid, -⟩ := h.err_done herr
  exact ⟨hvalid, h.no_reading hvalid⟩

theorem Invariant.done_ports {s : State} (h : Invariant s) (hd : s.resDone = true) :
    ∃ o : ReadResult, { s.ports with linePullLow := false } = o.ports := by
  have hbusy : s.resBusy = false := by simpa [hd] using mt h.busy_not_done
  cases herr : s.resErr
  case none =>
    have hvalid := h.done_outcome hd herr
    exact ⟨.ok s.resHum s.resTemp, by simp [State.ports, ReadResult.ports, ErrKind.code, hbusy, hd, hvalid, herr]⟩
  case timeout =>
    have hdata := h.no_data_of_err (by simp [herr])
    exact ⟨.timeout, by simp [State.ports, ReadResult.ports, ErrKind.code, hbusy, hd, hdata, herr]⟩
  case checksumError =>
    have hdata := h.no_data_of_err (by simp [herr])
    exact ⟨.checksumError, by simp [State.ports, ReadResult.ports, ErrKind.code, hbusy, hd, hdata, herr]⟩

theorem Invariant.not_done_ports {s : State} (h : Invariant s) (hd : s.resDone = false) :
    s.ports = { linePullLow := s.linePullLow, busy := s.resBusy, done := false, valid := false, err := 0b00#2,
                hum := 0#16, temp := 0#16 } := by
  have hvalid : s.resValid = false := by simpa [hd] using mt fun hv => (h.valid_ok hv).2
  have herr : s.resErr = .none := by simpa [hd] using mt fun he => (h.err_done he).2
  simp [State.ports, ErrKind.code, hd, hvalid, herr, h.no_reading hvalid]

/-! ### Runs, and steps that leave the block busy -/

theorem runSteps_zero_next {s t : State} : runSteps 0 s = .next t ↔ s = t := by
  simp [runSteps]

theorem runSteps_succ_next {k : Nat} {s t : State} :
    runSteps (k + 1) s = .next t ↔ ∃ u, step s = .next u ∧ runSteps k u = .next t := by
  rw [runSteps]
  cases step s <;> simp

/-- A reset ends the transaction, so a step that leaves the block busy is an operation or a computation in full. -/
theorem run_of_step_busy {s t : State} (h : step s = .next t) (hb : t.resBusy = true) :
    (∃ w, s.op = some w ∧ runOp w s = .next t) ∨ (s.op = none ∧ runPhase s = .next t) := by
  obtain ⟨-, rfl⟩ | ⟨-, u, rfl, hrun⟩ := step_next.mp h
  · simp [State.heldInReset] at hb
  · obtain ⟨heq, -⟩ | ⟨r, -, -, -, heq, -⟩ := orReset_cases s u
    · rwa [heq]
    · simp [heq] at hb

/-- A measurement that leaves the block busy has not timed out: the phase goes on with what follows. -/
theorem unlessTimedOut_busy {s t : State} (hb : (unlessTimedOut s t).resBusy = true) : unlessTimedOut s t = t := by
  obtain ⟨-, heq⟩ | ⟨-, heq⟩ := unlessTimedOut_cases s t
  · simp [heq] at hb
  · exact heq

theorem validate_busy {s : State} (hb : (validate s).resBusy = true) : validate s = s.enter .convert := by
  unfold validate at hb ⊢
  split at hb
  · rw [if_pos ‹_›]
  · simp at hb

/-! ### The points of a read (30 R86) -/

theorem getElem?_flatMap_pair {α β : Type} (a b : α) (l : List β) (n : Nat) :
    (l.flatMap fun _ => [a, b])[2 * n]? = (if n < l.length then some a else none) ∧
    (l.flatMap fun _ => [a, b])[2 * n + 1]? = (if n < l.length then some b else none) := by
  induction l generalizing n with
  | nil => simp
  | cons x l ih =>
    cases n with
    | zero => simp
    | succ n => simpa [Nat.mul_succ] using ih n

theorem readExpansion_cell (c : Params) (n : Nat) :
    (readExpansion c)[2 * n + 7]? = (if n < 40 then some (.measureWhile .low c.toBitLowUs) else none) ∧
    (readExpansion c)[2 * n + 8]? = (if n < 40 then some (.measureWhile .high c.toBitHighUs) else none) := by
  simpa [readExpansion, nBits] using
    getElem?_flatMap_pair (Instr.measureWhile .low c.toBitLowUs) (.measureWhile .high c.toBitHighUs) (List.range nBits) n

/-- The points of a read: after `k` steps from acceptance the block is in a phase, has decoded so many bits, and has this
operation on its interface. -/
inductive ReadPoint (c : Params) : Nat → Phase → Nat → Option Instr → Prop
  | driveLow : ReadPoint c 0 .requestPulseLow 0 (some .driveLow)
  | delayStart : ReadPoint c 1 .requestPulseLow 0 (some (.delay c.tStartUs))
  | releaseHigh : ReadPoint c 2 .requestPulseRelease 0 (some .releaseHigh)
  | delayRelease : ReadPoint c 3 .requestPulseRelease 0 (some (.delay c.tReleaseUs))
  | switchToInput : ReadPoint c 4 .requestPulseRelease 0 (some .switchToInput)
  | ackLow : ReadPoint c 5 .awaitResponseLow 0 (some (.measureWhile .low c.toAckLowUs))
  | ackHigh : ReadPoint c 6 .awaitResponseHigh 0 (some (.measureWhile .high c.toAckHighUs))
  | bitLow {n : Nat} (hn : n < 40) : ReadPoint c (2 * n + 7) .bitLoopLow n (some (.measureWhile .low c.toBitLowUs))
  | bitHigh {n : Nat} (hn : n < 40) : ReadPoint c (2 * n + 8) .bitLoopHigh n (some (.measureWhile .high c.toBitHighUs))
  | validate : ReadPoint c 87 .validate 40 none
  | convert : ReadPoint c 88 .convert 40 none

theorem ReadPoint.word {c : Params} {k n : Nat} {p : Phase} {o : Option Instr} (h : ReadPoint c k p n o) :
    (readExpansion c)[k]? = o := by
  cases h
  case bitLow hn => simp [(readExpansion_cell c _).1, hn]
  case bitHigh hn => simp [(readExpansion_cell c _).2, hn]
  case validate => exact (readExpansion_cell c 40).1
  case convert => exact (readExpansion_cell c 40).2
  all_goals rfl

/-- `s` is `k` steps into a read with the parameters `c`. -/
def AtPoint (c : Params) (k : Nat) (s : State) : Prop :=
  ∃ p n o, ReadPoint c k p n o ∧ s.cfg = c ∧ s.fdPhase = p ∧ s.fdBitidx.toNat = n ∧ s.op = o.map encode

theorem atPoint_acceptRead (s : State) : AtPoint s.cfg 0 s.acceptRead :=
  ⟨_, _, _, .driveLow, rfl, rfl, rfl, rfl⟩

theorem AtPoint.op {c : Params} {k : Nat} {s : State} (h : AtPoint c k s) :
    s.op = ((readExpansion c)[k]?).map encode := by
  obtain ⟨p, n, o, hpoint, -, -, -, hop⟩ := h
  rw [hpoint.word, hop]

/-! ### One step along the points of a read -/

theorem runOp_of_step_busy {s t : State} {i : Instr} (hop : s.op = some (encode i)) (h : step s = .next t)
    (hb : t.resBusy = true) : runOp (encode i) s = .next t := by
  simpa [hop] using run_of_step_busy h hb

theorem runPhase_of_step_busy {s t : State} (hop : s.op = none) (h : step s = .next t) (hb : t.resBusy = true) :
    runPhase s = .next t := by
  simpa [hop] using run_of_step_busy h hb

/-- A phase that measures goes on with what follows it, `after`, when the read goes on. -/
theorem measuring_step_busy {s t : State} {l : Level} {T : U32} {after : State → State}
    (hseq : ∀ u : State, u.fdPhase = s.fdPhase → sequencerAfter (.measureWhile l T) u = unlessTimedOut u (after u))
    (hop : s.op = some (encode (.measureWhile l T))) (h : step s = .next t) (hb : t.resBusy = true) :
    ∃ u, t = after u ∧ u.cfg = s.cfg ∧ u.fdBitidx = s.fdBitidx := by
  obtain ⟨u, hexec, ht⟩ := runOp_encode_next.mp (runOp_of_step_busy hop h hb)
  obtain ⟨-, rfl⟩ := execMeasureWhile_next.mp hexec
  replace ht := ht.trans (hseq _ (by exact rfl))
  exact ⟨_, ht.trans (unlessTimedOut_busy (ht ▸ hb)), rfl, rfl⟩

theorem appendBit_fdBitidx {s : State} (hn : s.fdBitidx.toNat < 40) :
    (appendBit s).fdBitidx.toNat = s.fdBitidx.toNat + 1 := by
  simp [appendBit, BitVec.toNat_add]
  omega

/-- 42 R125: the bit of cell `n` leads to cell `n + 1`, and the 40th to Validate. -/
theorem atPoint_appendBit {s : State} {n : Nat} (hn : n < 40) (hidx : s.fdBitidx.toNat = n) :
    AtPoint s.cfg (2 * n + 9) (appendBit s) := by
  subst hidx
  have hcount := appendBit_fdBitidx hn
  have hlast : s.fdBitidx + 1#6 = BitVec.ofNat 6 nBits ↔ s.fdBitidx.toNat + 1 = 40 := by
    rw [← hcount, ← BitVec.toNat_inj]
    rfl
  by_cases hfull : s.fdBitidx.toNat + 1 = 40
  · rw [hfull] at hcount
    rw [show 2 * s.fdBitidx.toNat + 9 = 87 by omega]
    exact ⟨_, _, _, .validate, rfl, if_pos (hlast.mpr hfull), hcount, by simp [appendBit, hlast, hfull, firstOp]⟩
  · exact ⟨_, _, _, .bitLow (n := s.fdBitidx.toNat + 1) (by omega), rfl, if_neg (mt hlast.mp hfull), hcount,
      by simp [appendBit, hlast, hfull, firstOp]⟩

/-- 30 R86: each point leads to the next, as long as the block stays busy. -/
theorem AtPoint.step {c : Params} {k : Nat} {s t : State} (h : AtPoint c k s) (hstep : step s = .next t)
    (hb : t.resBusy = true) : AtPoint c (k + 1) t := by
  obtain ⟨p, n, o, hpoint, rfl, hp, hn, hop⟩ := h
  cases hpoint
  case driveLow =>
    cases (runOp_driveLow hp).symm.trans (runOp_of_step_busy hop hstep hb)
    exact ⟨_, _, _, .delayStart, rfl, hp, hn, rfl⟩
  case delayStart =>
    cases (runOp_delay_requestPulseLow hp _).symm.trans (runOp_of_step_busy hop hstep hb)
    exact ⟨_, _, _, .releaseHigh, rfl, rfl, hn, rfl⟩
  case releaseHigh =>
    cases (runOp_releaseHigh hp).symm.trans (runOp_of_step_busy hop hstep hb)
    exact ⟨_, _, _, .delayRelease, rfl, hp, hn, rfl⟩
  case delayRelease =>
    cases (runOp_delay_requestPulseRelease hp _).symm.trans (runOp_of_step_busy hop hstep hb)
    exact ⟨_, _, _, .switchToInput, rfl, hp, hn, rfl⟩
  case switchToInput =>
    cases (runOp_switchToInput hp).symm.trans (runOp_of_step_busy hop hstep hb)
    exact ⟨_, _, _, .ackLow, rfl, rfl, hn, rfl⟩
  case ackLow =>
    obtain ⟨u, rfl, hcfg, hidx⟩ :=
      measuring_step_busy (fun u hu => sequencerAfter_awaitResponseLow (hu.trans hp) _ _) hop hstep hb
    exact ⟨_, _, _, .ackHigh, hcfg, rfl, hidx ▸ hn, hcfg ▸ rfl⟩
  case ackHigh =>
    obtain ⟨u, rfl, hcfg, hidx⟩ :=
      measuring_step_busy (fun u hu => sequencerAfter_awaitResponseHigh (hu.trans hp) _ _) hop hstep hb
    exact ⟨_, _, _, .bitLow (n := 0) (by decide), hcfg, rfl, rfl, hcfg ▸ rfl⟩
  case bitLow hlt =>
    obtain ⟨u, rfl, hcfg, hidx⟩ :=
      measuring_step_busy (fun u hu => sequencerAfter_bitLoopLow (hu.trans hp) _ _) hop hstep hb
    exact ⟨_, _, _, .bitHigh hlt, hcfg, rfl, hidx ▸ hn, hcfg ▸ rfl⟩
  case bitHigh hlt =>
    obtain ⟨u, rfl, hcfg, hidx⟩ :=
      measuring_step_busy (fun u hu => sequencerAfter_bitLoopHigh (hu.trans hp) _ _) hop hstep hb
    exact hcfg ▸ atPoint_appendBit hlt (hidx ▸ hn)
  case validate =>
    obtain rfl : t = Machine.validate s := by simpa [hp] using runPhase_next.mp (runPhase_of_step_busy hop hstep hb)
    rw [validate_busy hb]
    exact ⟨_, _, _, .convert, rfl, rfl, hn, rfl⟩
  case convert =>
    obtain ⟨-, rfl⟩ : s.cfg.family = .tenths16 ∧ t = s.returnOk s.fdFrame.hum16 s.fdFrame.temp16 := by
      simpa [hp] using runPhase_next.mp (runPhase_of_step_busy hop hstep hb)
    simp at hb

/-- A property that steps which leave the block busy carry on holds along a run in which every state is busy. -/
theorem runSteps_busy_induction {P : Nat → State → Prop}
    (hP : ∀ {k s t}, P k s → step s = .next t → t.resBusy = true → P (k + 1) t) {k : Nat} :
    ∀ {j : Nat} {s t : State}, P j s → (∀ i ≤ k, ∃ u, runSteps i s = .next u ∧ u.resBusy = true) →
      runSteps k s = .next t → P (j + k) t := by
  induction k with
  | zero =>
    intro j s t hs _ hrun
    rwa [← runSteps_zero_next.mp hrun]
  | succ k ih =>
    intro j s t hs hbusy hrun
    obtain ⟨u, hstep, hrun⟩ := runSteps_succ_next.mp hrun
    have htail : ∀ i ≤ k, ∃ v, runSteps i u = .next v ∧ v.resBusy = true := fun i hi => by
      simpa [runSteps_succ_next, hstep] using hbusy (i + 1) (by omega)
    obtain ⟨v, hv, hb⟩ := htail 0 k.zero_le
    rw [← runSteps_zero_next.mp hv] at hb
    rw [Nat.add_comm k 1, ← Nat.add_assoc]
    exact ih (hP hs hstep hb) htail hrun

end Sys2Proof.Safety

namespace Sys2Proof.Proofs

open Sys2Proof.Machine Sys2Proof.Safety

/-- Settles O1: the word carries the fields of the operation, and each row of the map takes its own. -/
theorem decodeOfEncodeIsTheOperation : Obligations.DecodeOfEncodeIsTheOperation :=
  decode_encode

/-- Settles O41: every step that leaves the block busy goes from one point of the read to the next. -/
theorem readExpandsIntoTheFixedSequence : Obligations.ReadExpandsIntoTheFixedSequence := by
  intro s k _ hbusy t hrun
  have hpoint := runSteps_busy_induction AtPoint.step (atPoint_acceptRead s) hbusy hrun
  rw [hpoint.op, Nat.zero_add]

/-- Settles O2: the fields of a word that decodes are those of its operation, and they make up the whole word. -/
theorem encodeOfDecodeIsTheWord : Obligations.EncodeOfDecodeIsTheWord :=
  fun _ _ h => (decode_eq_ok.mp h).symm

/-- Settles O3: a row's words are those that begin with the bits its mask keeps. -/
theorem opcodeMapSelectsByMatchAndMask : Obligations.OpcodeMapSelectsByMatchAndMask :=
  fun _ => ⟨decode_eq_ok_iff_and rfl, decode_eq_ok_iff_and rfl, decode_eq_ok_iff_and rfl, decode_eq_ok_iff_and rfl,
    decode_measureWhile_iff_and, decode_delay_iff_and, decode_eq_ok_iff_and rfl⟩

/-- Settles O4: a reserved word is not READ, so an idle block lets it pass, and it is no operation's word, so the Sequencer never
issues it. -/
theorem reservedWordsAreIgnoredOrRefused : Obligations.ReservedWordsAreIgnoredOrRefused := by
  refine ⟨fun w => decodeFields_error, fun s w r hdec hrst hop => ?_, fun s w r hdec hcmd hp hop hreset => ?_,
    fun s w hinv hop => ?_⟩
  · rw [step_of_op hrst hop, runOp_of_decode_error hdec, onNext]
  · refine step_idle_ignores hp hop hreset (eq_false_of_ne_true fun hread => ?_)
    obtain ⟨-, -, hword⟩ := hostIssuesRead_iff_encode.mp hread
    cases hcmd.symm.trans hword
    simp at hdec
  · obtain ⟨i, rfl⟩ := hinv.op_encode hop
    exact ⟨i, decode_encode i⟩

/-- Settles O19: READ has one word, and the idle tick is what every other case leaves. -/
theorem idleBlockAcceptsOnlyRead : Obligations.IdleBlockAcceptsOnlyRead := by
  refine fun s hp hb hop hreset => ⟨fun hpolled hcmd => ?_, fun hno => ?_⟩
  · exact step_idle_accepts hp hop hreset (hostIssuesRead_iff_encode.mpr ⟨hpolled, hb, hcmd⟩)
  · refine step_idle_ignores hp hop hreset (eq_false_of_ne_true fun hread => ?_)
    obtain ⟨hpolled, -, hcmd⟩ := hostIssuesRead_iff_encode.mp hread
    exact hno.elim (fun hother => hother hcmd) (by simp [hpolled])

/-- Settles O39, by the content of `RES.err`: with `done = 1` it picks the outcome, with `done = 0` it is empty. -/
theorem resultPortsShowOneOutcome : Obligations.ResultPortsShowOneOutcome :=
  fun _ h => ⟨h.done_ports, h.not_done_ports⟩

/-- Settles O5: the legal words are the encodings of their operations. -/
theorem tableWordsDecode : Obligations.TableWordsDecode :=
  ⟨decode_eq_ok.mpr rfl, decode_eq_ok.mpr rfl, decode_eq_ok.mpr rfl, decode_eq_ok.mpr rfl, decode_eq_ok.mpr rfl,
    decode_eq_ok.mpr rfl, decode_eq_ok.mpr rfl, decode_eq_ok.mpr rfl, by decide, by decide, by decide⟩

/-- Settles O6, constructor by constructor. -/
theorem smallEnumerationsHaveTheirCodes : Obligations.SmallEnumerationsHaveTheirCodes := by
  refine ⟨rfl, rfl, rfl, rfl, rfl, rfl, rfl, rfl, rfl, fun p => ?_, rfl, rfl, rfl, fun m => ?_, rfl, rfl⟩
  · cases p <;> decide
  · cases m <;> decide

/-- Settles O28: the unsigned order of the words is the order of the numbers. -/
theorem thresholdIsInclusiveOnTheZeroSide : Obligations.ThresholdIsInclusiveOnTheZeroSide :=
  ⟨fun _ _ => decodedBit_iff, by decide, by decide⟩

end Sys2Proof.Proofs

/-! PROOFS. The family of 40_line_driver: what DRIVE_LOW, RELEASE_HIGH and SWITCH_TO_INPUT do to the line (O8 to O10), the sample
READ_LEVEL takes (O11), and what changes the drive mode (O12). -/

namespace Sys2Proof.Machine

/-! ### The line of a block that does not pull (20 R51) -/

theorem lineAt_of_not_outLow {s : State} (hm : s.ldMode ≠ .outLow) (t : Nat) :
    s.lineAt t = if s.env.sensorLow t then .low else .high := by
  simp [State.lineAt, lineLevel, hm]

/-! ### READ_LEVEL (40 R103) -/

theorem execReadLevel_of_input {s : State} (hm : s.ldMode = .input) :
    execReadLevel s = .next { s with resp := .level (if s.env.sensorLow s.now then 0#1 else 1#1) } := by
  have hbit : (s.lineAt s.now).toBit = if s.env.sensorLow s.now then 0#1 else 1#1 := by
    rw [lineAt_of_not_outLow (by simp [hm]), apply_ite Level.toBit]
    rfl
  exact execReadLevel_next.mpr ⟨hm, by rw [hbit]⟩

theorem execReadLevel_of_not_input {s : State} (hm : s.ldMode ≠ .input) :
    execReadLevel s = .refused .readLevelOutsideInput :=
  if_neg hm

/-! ### What leaves the drive mode (40 R105) -/

/-- Only the three operations that set the mode change it. -/
theorem exec_next_ldMode {i : Instr} {s t : State} (hlow : i ≠ .driveLow) (hhigh : i ≠ .releaseHigh)
    (hinput : i ≠ .switchToInput) (h : exec i s = .next t) : t.ldMode = s.ldMode := by
  cases i with
  | driveLow => exact absurd rfl hlow
  | releaseHigh => exact absurd rfl hhigh
  | switchToInput => exact absurd rfl hinput
  | readLevel => rw [(execReadLevel_next.mp h).2]
  | measureWhile l T => rw [(execMeasureWhile_next.mp h).2, finishMeasurement_ldMode]
  | delay n => rw [execDelay_next.mp h]
  | read => obtain ⟨-, rfl⟩ | ⟨-, rfl⟩ := execRead_next.mp h <;> rfl

theorem validate_ldMode (s : State) : (validate s).ldMode = s.ldMode := by
  unfold validate
  split <;> rfl

/-- An operation or a computation that takes no time has no tick inside it for a reset to win at. -/
theorem orReset_of_now_eq {s t : State} (h : t.now = s.now) : s.orReset t = t := by
  simp [State.orReset, h]

/-- 42 R127, R128: a step in Validate or Convert is the computation, or the return, of its phase. -/
theorem step_next_computation {s t : State} (hp : s.fdPhase = .validate ∨ s.fdPhase = .convert) (hop : s.op = none)
    (hrst : s.env.rstAt s.now = false) (h : step s = .next t) :
    t = validate s ∨ t = s.returnOk s.fdFrame.hum16 s.fdFrame.temp16 := by
  rw [step_of_no_op hrst hop] at h
  obtain ⟨u, hphase, rfl⟩ := onNext_next.mp h
  obtain hp | hp := hp
  · obtain rfl : u = validate s := by simpa [hp] using runPhase_next.mp hphase
    exact .inl (orReset_of_now_eq (validate_world s).2.2)
  · obtain ⟨-, rfl⟩ : s.cfg.family = .tenths16 ∧ u = s.returnOk s.fdFrame.hum16 s.fdFrame.temp16 := by
      simpa [hp] using runPhase_next.mp hphase
    exact .inr (orReset_of_now_eq rfl)

end Sys2Proof.Machine

namespace Sys2Proof.Safety

open Sys2Proof.Machine

/-- READ_LEVEL is none of the words of a read (30 R86). -/
theorem Invariant.op_ne_readLevel {s : State} (h : Invariant s) : s.op ≠ some (encode .readLevel) := by
  intro hop
  cases hp : s.fdPhase
  case idle => simp [((opFits_idle hp).mp h.op_fits).1] at hop
  case requestPulseLow => simpa [hop, encode_inj] using (opFits_requestPulseLow hp).mp h.op_fits
  case requestPulseRelease => simpa [hop, encode_inj] using (opFits_requestPulseRelease hp).mp h.op_fits
  all_goals
    obtain ⟨⟨l, T, hword⟩, -⟩ := h.op_listens (by rw [hp]; rfl) hop
    exact Instr.noConfusion (encode_inj.mp hword)

end Sys2Proof.Safety

namespace Sys2Proof.Proofs

open Sys2Proof.Machine Sys2Proof.Safety

/-- Settles O12: an operation by its own arm, a computation by the one result its phase has, reset by the reset values. -/
theorem modeTransitionTable : Obligations.ModeTransitionTable := by
  refine ⟨fun s => ⟨⟨_, execDriveLow_next.mpr rfl, rfl⟩, ⟨_, execReleaseHigh_next.mpr rfl, rfl⟩,
    ⟨_, execSwitchToInput_next.mpr rfl, rfl⟩, fun hrst => ⟨_, step_next.mpr (.inl ⟨hrst, rfl⟩), rfl⟩⟩,
    fun i s t => exec_next_ldMode, fun s t hp hop hrst h => ?_⟩
  obtain rfl | rfl := step_next_computation hp hop hrst h
  · exact validate_ldMode s
  · exact returnOk_ldMode _ _ s

/-- Settles O8: pulled by the block, the line is low whatever the sensor does. -/
theorem driveLowPullsTheLine : Obligations.DriveLowPullsTheLine :=
  ⟨decode_eq_ok.mpr rfl, fun _ => ⟨execDriveLow_next.mpr rfl, fun _ => lineAt_eq_low.mpr (.inl rfl)⟩⟩

/-- Settles O9: `OutHigh` does not pull. -/
theorem releaseHighStopsPulling : Obligations.ReleaseHighStopsPulling :=
  ⟨decode_eq_ok.mpr rfl, fun _ => ⟨execReleaseHigh_next.mpr rfl, lineAt_of_not_outLow nofun⟩⟩

/-- Settles O10: `Input` does not pull, and it is the mode in which READ_LEVEL samples. -/
theorem switchToInputGivesTheLineUp : Obligations.SwitchToInputGivesTheLineUp :=
  ⟨decode_eq_ok.mpr rfl, fun _ =>
    ⟨execSwitchToInput_next.mpr rfl, lineAt_of_not_outLow nofun, execReadLevel_of_input rfl⟩⟩

/-- Settles O11: the sample writes the response only, so a second one finds the same mode, tick and line; the Sequencer has no
READ_LEVEL in any phase, and a measurement in input mode only. -/
theorem readLevelSamplesTheLine : Obligations.ReadLevelSamplesTheLine :=
  ⟨decode_eq_ok.mpr rfl, fun _ hm => ⟨_, execReadLevel_of_input hm, rfl, execReadLevel_of_input hm⟩,
    fun _ hm => execReadLevel_of_not_input hm,
    fun _ h hm => ⟨h.op_ne_readLevel, fun _ _ hop => hm (h.input_of_measureWhile hop)⟩⟩

end Sys2Proof.Proofs

/-! PROOFS. The family of 41_pulse_timer: what MEASURE_WHILE measures (O13), its sampling loop (O14), two measurements in a row
(O15), and DELAY (O16). -/

namespace Sys2Proof.Machine

open Sys2Proof.Claims Sys2Proof.Safety

/-! ### The words of the PulseTimer (30 R78) -/

theorem encode_measureWhile (l : Level) (T : U32) :
    encode (.measureWhile l T) =
      0xA00000000#36 ||| (if l = .high then 1#36 else 0#36) <<< 32 ||| T.zeroExtend 36 := by
  cases l <;> simp [encode, encodeFields, OpFields.toWord, Level.toBit]

theorem encode_delay (n : U32) : encode (.delay n) = 0xC00000000#36 ||| n.zeroExtend 36 := by
  simp [encode, encodeFields, OpFields.toWord]

/-! ### The line a measurement samples (41 R110, R111) -/

theorem lineAt_of_input {s : State} (hm : s.ldMode = .input) (t : Nat) : s.lineAt t = freeLine s.env t :=
  lineAt_of_not_outLow (by simp [hm]) t

theorem ne_opposite_iff {x l : Level} : x ≠ opposite l ↔ x = l := by
  cases x <;> cases l <;> simp [opposite]

/-- `HoldsFor` over the ticks themselves. -/
theorem level_of_holdsFor {line : Nat → Level} {l : Level} {a d : Nat} (h : HoldsFor line l a d) {k : Nat}
    (ha : a ≤ k) (hk : k < a + d) : line k = l := by
  have hline := h.1 (k - a) (by omega)
  rwa [Nat.add_sub_cancel' ha] at hline

/-! ### MEASURE_WHILE by its closed form (41 R111) -/

theorem execMeasureWhile_of_holdsFor {s : State} {l : Level} {T : U32} {d : Nat} (hm : s.ldMode = .input)
    (hd : d ≤ T.toNat) (h : HoldsFor (freeLine s.env) l s.now d) :
    execMeasureWhile l T s = .next (afterMeasurement s l T d ⟨false, BitVec.ofNat 32 d⟩) := by
  simp_rw [HoldsFor, ← lineAt_of_input hm] at h
  obtain ⟨hheld, hchange⟩ := h
  exact execMeasureWhile_next.mpr ⟨hm, by rw [measured_of_change hd hchange hheld]; rfl⟩

/-- The duration of a measurement that times out is the next free value (log 8). -/
theorem execMeasureWhile_of_holdsPast {s : State} {l : Level} {T : U32} (hm : s.ldMode = .input)
    (h : HoldsPast (freeLine s.env) l s.now T.toNat) :
    execMeasureWhile l T s = .next
      { afterMeasurement s l T (T.toNat + 1) ⟨true, Config.freeDuration s.draws⟩ with draws := s.draws + 1 } := by
  simp_rw [HoldsPast, ← lineAt_of_input hm] at h
  exact execMeasureWhile_next.mpr ⟨hm, by rw [measured_of_stays h]; rfl⟩

theorem measured_elapsed_le (s : State) (l : Level) (T : U32) : (measured s l T).1 ≤ T.toNat + 1 := by
  obtain ⟨d, hmeas, hle, -⟩ | ⟨hmeas, -⟩ := measured_cases s l T
  · rw [hmeas]
    exact Nat.le_succ_of_le hle
  · rw [hmeas]

/-- A measurement that has not timed out returns at the first tick at which the level differs, and its duration is the time that
has passed. -/
theorem execMeasureWhile_of_not_timedOut {s t : State} {l : Level} {T : U32} (h : execMeasureWhile l T s = .next t)
    (hto : t.ptMeas.timedOut = false) :
    t.env = s.env ∧ t.now = s.now + t.ptMeas.durationUs.toNat ∧
      HoldsFor (freeLine s.env) l s.now t.ptMeas.durationUs.toNat := by
  obtain ⟨hm, rfl⟩ := execMeasureWhile_next.mp h
  obtain ⟨d, hmeas, hle, hchange, hheld⟩ | ⟨hmeas, -⟩ := measured_cases s l T
  · have hdur : (measurementOf s (d, false)).durationUs.toNat = d :=
      Nat.mod_eq_of_lt (hle.trans_lt T.isLt)
    rw [hmeas, finishMeasurement_ptMeas, hdur]
    simp_rw [HoldsFor, ← lineAt_of_input hm]
    exact ⟨rfl, rfl, hheld, hchange⟩
  · simp [hmeas, measurementOf] at hto

/-! ### The sampling loop (41 R110) -/

/-- `PT.elapsed` has 33 bits, so it counts one past every timeout. -/
theorem elapsedExceeds_iff {n : Nat} (hn : n < 2 ^ 33) (T : U32) :
    elapsedExceeds (BitVec.ofNat 33 n) T = true ↔ T.toNat < n := by
  have hT := T.isLt
  simp [elapsedExceeds, BitVec.lt_def]
  omega

/-- After `e` passes that all saw `level`, the passes still to come find what the closed form finds. -/
theorem sampleLoop_eq_measured {s : State} {l : Level} {T : U32} {fuel e : Nat} (hfuel : e + fuel = T.toNat + 1)
    (hheld : ∀ k < e, s.lineAt (s.now + k) = l) : sampleLoop s l T fuel e = measured s l T := by
  induction fuel generalizing e with
  | zero =>
    rw [sampleLoop, measured_of_stays fun k hk => hheld k (by omega), ← hfuel, Nat.add_zero]
  | succ fuel ih =>
    have hT := T.isLt
    simp only [sampleLoop, elapsedExceeds_iff (show e + 1 < 2 ^ 33 by omega)]
    split_ifs with hchange hlast
    · exact (measured_of_change (by omega) hchange hheld).symm
    all_goals
      have hheld' : ∀ k < e + 1, s.lineAt (s.now + k) = l :=
        Nat.forall_lt_succ_right.mpr ⟨hheld, not_not.mp hchange⟩
    · rw [measured_of_stays fun k hk => hheld' k (by omega), show e = T.toNat by omega]
    · exact ih (by omega) hheld'

/-! ### DELAY (41 R114) -/

/-- The countdown loop, run for as many passes as the counter says, empties it one tick at a time. -/
theorem countDown_dlCount {k : Nat} {s : State} (hk : s.dlCount.toNat = k) :
    countDown k s = { s with dlCount := 0#32, now := s.now + k } := by
  induction k generalizing s with
  | zero =>
    have hzero : s.dlCount = 0#32 := BitVec.eq_of_toNat_eq hk
    rw [← hzero]
    rfl
  | succ k ih =>
    have hne : s.dlCount ≠ 0#32 := by rintro hzero; simp [hzero] at hk
    have hpred : (s.dlCount - 1#32).toNat = k := by bv_omega
    rw [countDown, if_pos hne, ih hpred]
    simp [State.advance, Nat.add_assoc, Nat.add_comm 1]

end Sys2Proof.Machine

namespace Sys2Proof.Proofs

open Sys2Proof.Machine Sys2Proof.Safety Sys2Proof.Claims

/-- Settles O13: the line holds for `D` ticks or past the timeout, and the response is the measurement's own bits. -/
theorem measureWhileClosedForm : Obligations.MeasureWhileClosedForm := by
  refine fun s l T hm => ⟨fun _ hD h => execMeasureWhile_of_holdsFor hm hD h,
    fun h => ⟨_, execMeasureWhile_of_holdsPast hm h⟩,
    _, _, execMeasureWhile_next.mpr ⟨hm, rfl⟩, ?_, finishMeasurement_resp l T _ s,
    toBits_timedOut _, toBits_durationUs _⟩
  have hle := measured_elapsed_le s l T
  rw [finishMeasurement_now]
  omega

/-- Settles O14: the loop from `elapsed = 0` has nothing behind it, so it finds what the closed form finds. -/
theorem measureWhileIsTheSamplingLoop : Obligations.MeasureWhileIsTheSamplingLoop := by
  refine fun s l T => ⟨decode_eq_ok.mpr (encode_measureWhile l T).symm, fun hm => ?_, fun hm => if_neg hm⟩
  rw [sampleLoop_eq_measured (Nat.zero_add _) nofun]
  exact execMeasureWhile_next.mpr ⟨hm, rfl⟩

/-- Settles O15: the level at which the first measurement ended is the one the second begins with, so the second lasts at least
one tick. -/
theorem backToBackMeasurementsCountEveryTick : Obligations.BackToBackMeasurementsCountEveryTick := by
  intro s t u l T T' hfirst hto hsecond hto'
  obtain ⟨henv, hnow, hheld⟩ := execMeasureWhile_of_not_timedOut hfirst hto
  obtain ⟨-, hnow', hheld'⟩ := execMeasureWhile_of_not_timedOut hsecond hto'
  rw [henv] at hheld'
  have hpos : 1 ≤ u.ptMeas.durationUs.toNat := by
    by_contra hzero
    have hback := ne_opposite_iff.mp hheld'.2
    rw [show u.ptMeas.durationUs.toNat = 0 by omega, Nat.add_zero, hnow] at hback
    exact hheld.2 hback
  refine ⟨by rw [hnow', hnow], hpos, fun k ha hk => ?_, fun k ha hk => ?_, ?_⟩
  · exact level_of_holdsFor hheld ha (hnow ▸ hk)
  · exact level_of_holdsFor hheld' ha (hnow' ▸ hk)
  · rw [hnow']
    exact ne_opposite_iff.mp hheld'.2

/-- Settles O16: the closed form is DELAY's meaning, and the countdown from `n_us` reaches the same state. -/
theorem delayWaitsExactly : Obligations.DelayWaitsExactly :=
  fun _ n => ⟨decode_eq_ok.mpr (encode_delay n).symm, execDelay_next.mpr rfl,
    execDelay_next.mpr (countDown_dlCount (by rfl))⟩

end Sys2Proof.Proofs

/-! PROOFS. The family of 42_frame_decoder: acceptance (O17), the request pulse (O21), the phases that measure (O22 to O25),
Validate and Convert (O26, O27), the transition table (O30), and whole reads: the closed form (O42), a frame on the line (O43),
the time bounds (O44) and independence of the past (O45). -/

namespace Sys2Proof.Safety

open Sys2Proof.Machine Sys2Proof.Claims

/-! ### A step that no reset touches -/

/-- `NoReset` is about the outside world and two ticks, so it holds of any state of the run for a shorter span. -/
theorem NoReset.within {s t : State} {a b a' b' : Nat} (h : NoReset s a b) (henv : t.env = s.env) (ha : a ≤ a')
    (hb : b' ≤ b) : NoReset t a' b' := by
  intro r hr hin
  rw [henv] at hr
  exact h r hr ⟨ha.trans hin.1, hin.2.trans hb⟩

theorem step_of_runOp {s t : State} {w : OpWord} (hop : s.op = some w) (hrun : runOp w s = .next t)
    (hreset : NoReset s s.now t.now) : step s = .next t := by
  rw [step_of_op (hreset.rstAt_now (runOp_next_world hrun).2.2) hop, hrun, onNext_of_next, hreset.orReset le_rfl]

/-- A computation takes no time, so only a reset at its own tick could touch it. -/
theorem step_of_runPhase {s t : State} (hop : s.op = none) (hrst : s.env.rstAt s.now = false)
    (hrun : runPhase s = .next t) (hnow : t.now = s.now) : step s = .next t := by
  rw [step_of_no_op hrst hop, hrun, onNext_of_next, orReset_of_now_eq hnow]

end Sys2Proof.Safety

namespace Sys2Proof.Machine

open Sys2Proof.Safety Sys2Proof.Claims

/-! ### The request pulse, one operation a step (42 R121) -/

/-- DRIVE_LOW has completed. -/
def State.driven (s : State) : State :=
  { s.acceptRead with ldMode := .outLow, fdOwner := .driving, op := some (encode (.delay s.cfg.tStartUs)), resp := .none }

/-- DELAY(`T_START_US`) has completed. -/
def State.startHeld (s : State) : State :=
  { s.driven with dlCount := 0#32, fdPhase := .requestPulseRelease, op := some (encode .releaseHigh),
                  now := s.now + s.cfg.tStartUs.toNat }

/-- RELEASE_HIGH has completed. -/
def State.released (s : State) : State :=
  { s.startHeld with ldMode := .outHigh, op := some (encode (.delay s.cfg.tReleaseUs)) }

/-- DELAY(`T_RELEASE_US`) has completed. -/
def State.releaseHeld (s : State) : State :=
  { s.released with op := some (encode .switchToInput), now := listenTick s.cfg s.now }

/-- SWITCH_TO_INPUT has completed: the read listens. -/
def State.listening (s : State) : State :=
  { s.acceptRead with ldMode := .input, fdOwner := .listening, dlCount := 0#32, fdPhase := .awaitResponseLow,
                      op := some (encode (.measureWhile .low s.cfg.toAckLowUs)), resp := .none,
                      now := listenTick s.cfg s.now }

theorem startEnd_le_listenTick (c : Config.Params) (t : Nat) : t + c.tStartUs.toNat ≤ listenTick c t :=
  Nat.le_add_right _ _

theorem le_listenTick (c : Config.Params) (t : Nat) : t ≤ listenTick c t :=
  (Nat.le_add_right _ _).trans (startEnd_le_listenTick c t)

/-- DRIVE_LOW takes no time, so only a reset at its own tick could touch it. -/
theorem step_acceptRead_of_rstAt {s : State} (hrst : s.env.rstAt s.now = false) : step s.acceptRead = .next s.driven := by
  rw [step_of_op (s := s.acceptRead) hrst rfl, runOp_driveLow rfl, onNext_of_next]
  exact congrArg Host.Outcome.next (orReset_of_now_eq rfl)

section RequestPulse

variable {s : State} (hreset : NoReset s s.now (listenTick s.cfg s.now))
include hreset

theorem step_acceptRead : step s.acceptRead = .next s.driven :=
  step_acceptRead_of_rstAt (hreset.rstAt_now (le_listenTick _ _))

theorem step_driven : step s.driven = .next s.startHeld :=
  step_of_runOp rfl (runOp_delay_requestPulseLow rfl _) (hreset.within rfl le_rfl (startEnd_le_listenTick _ _))

theorem step_startHeld : step s.startHeld = .next s.released :=
  step_of_runOp rfl (runOp_releaseHigh rfl)
    (hreset.within rfl (Nat.le_add_right _ _) (startEnd_le_listenTick _ _))

theorem step_released : step s.released = .next s.releaseHeld :=
  step_of_runOp rfl (runOp_delay_requestPulseRelease rfl _) (hreset.within rfl (Nat.le_add_right _ _) le_rfl)

theorem step_releaseHeld : step s.releaseHeld = .next s.listening :=
  step_of_runOp rfl (runOp_switchToInput rfl) (hreset.within rfl (le_listenTick _ _) le_rfl)

end RequestPulse

/-! ### The phases that measure (42 R122 to R125) -/

/-- With the parameters `c`, phase `p` measures `l` with timeout `T`, and a pulse within it leads on to `next`. -/
inductive Measures (c : Config.Params) : Phase → Level → U32 → (State → State) → Prop
  | ackLow : Measures c .awaitResponseLow .low c.toAckLowUs (State.enter .awaitResponseHigh)
  | ackHigh : Measures c .awaitResponseHigh .high c.toAckHighUs (fun s => { s with fdBitidx := 0#6 }.enter .bitLoopLow)
  | bitLow : Measures c .bitLoopLow .low c.toBitLowUs (State.enter .bitLoopHigh)
  | bitHigh : Measures c .bitLoopHigh .high c.toBitHighUs appendBit

section Measures

variable {c : Config.Params} {p : Phase} {l : Level} {T : U32} {next : State → State} (hp : Measures c p l T next)
include hp

theorem Measures.firstOp_eq : firstOp c p = some (.measureWhile l T) := by
  cases hp <;> rfl

theorem Measures.sequencerAfter_eq {s : State} (hs : s.fdPhase = p) :
    sequencerAfter (.measureWhile l T) s = unlessTimedOut s (next s) := by
  cases hp with
  | ackLow => exact sequencerAfter_awaitResponseLow hs _ _
  | ackHigh => exact sequencerAfter_awaitResponseHigh hs _ _
  | bitLow => exact sequencerAfter_bitLoopLow hs _ _
  | bitHigh => exact sequencerAfter_bitLoopHigh hs _ _

/-- What follows a pulse leaves the measurement and the time as they are. -/
theorem Measures.next_keeps (s : State) : (next s).ptMeas = s.ptMeas ∧ (next s).now = s.now := by
  cases hp <;> exact ⟨rfl, rfl⟩

theorem Measures.runOp_eq {s u : State} (hs : u.fdPhase = p) (hexec : execMeasureWhile l T s.takeOp = .next u) :
    runOp (encode (.measureWhile l T)) s = .next (unlessTimedOut u (next u)) :=
  runOp_encode_next.mpr ⟨u, hexec, (hp.sequencerAfter_eq hs).symm⟩

/-- What the phase can come to: a pulse within the timeout at the cost of its duration, or Timeout (42 R131). -/
theorem Measures.runOp_cases {s t : State} (hs : s.fdPhase = p) (hrun : runOp (encode (.measureWhile l T)) s = .next t) :
    (∃ u, t = next u ∧ t.ptMeas.timedOut = false ∧ t.ptMeas.durationUs ≤ T ∧
      t.now = s.now + t.ptMeas.durationUs.toNat) ∨
    (t.ptMeas.timedOut = true ∧ t.fdPhase = .idle ∧ t.resErr = .timeout ∧ t.now = s.now + T.toNat + 1) := by
  obtain ⟨u, hexec, -⟩ := runOp_encode_next.mp hrun
  obtain ⟨-, rfl⟩ := execMeasureWhile_next.mp hexec
  cases (hp.runOp_eq (by exact hs) hexec).symm.trans hrun
  obtain ⟨d, hmeas, hle, -⟩ | ⟨hmeas, -⟩ := measured_cases s.takeOp l T <;> rw [hmeas]
  · have hdur : (BitVec.ofNat 32 d).toNat = d := Nat.mod_eq_of_lt (hle.trans_lt T.isLt)
    obtain ⟨hkept, hnow⟩ := hp.next_keeps (finishMeasurement l T (d, false) s.takeOp)
    refine .inl ⟨_, rfl, ?_⟩
    rw [unlessTimedOut, if_neg (by exact Bool.false_ne_true), hkept, hnow]
    exact ⟨rfl, BitVec.le_def.mpr (hdur.le.trans hle), congrArg (s.now + ·) hdur.symm⟩
  · exact .inr ⟨rfl, rfl, rfl, rfl⟩

variable {s : State} (hs : s.fdPhase = p) (hop : s.op = some (encode (.measureWhile l T))) (hm : s.ldMode = .input)
include hs hop hm

theorem Measures.step_of_holdsFor {d : Nat} (hd : d ≤ T.toNat) (hheld : HoldsFor (freeLine s.env) l s.now d)
    (hreset : NoReset s s.now (s.now + d)) :
    step s = .next (next (afterMeasurement s.takeOp l T d ⟨false, BitVec.ofNat 32 d⟩)) := by
  have hrun := hp.runOp_eq (by exact hs) (execMeasureWhile_of_holdsFor (s := s.takeOp) hm hd hheld)
  exact step_of_runOp hop hrun (hreset.within rfl le_rfl (hp.next_keeps _).2.le)

theorem Measures.step_of_holdsPast (hheld : HoldsPast (freeLine s.env) l s.now T.toNat)
    (hreset : NoReset s s.now (s.now + T.toNat + 1)) :
    step s = .next { aborted (afterMeasurement s l T (T.toNat + 1) ⟨true, Config.freeDuration s.draws⟩) .timeout with
      draws := s.draws + 1 } := by
  have hrun := hp.runOp_eq (by exact hs) (execMeasureWhile_of_holdsPast (s := s.takeOp) hm hheld)
  exact step_of_runOp hop hrun hreset

end Measures

/-- A phase that measures, with what follows its pulse as a function of the pulse's width. -/
theorem Measures.measuringPhase {s : State} {p : Phase} {l : Level} {T : U32} {next : State → State}
    (hp : Measures s.cfg p l T next) (h : Measuring s p l T) {after : Nat → State → State}
    (hafter : ∀ d ≤ T.toNat, next (afterMeasurement s.takeOp l T d ⟨false, BitVec.ofNat 32 d⟩) =
      after d (afterMeasurement s l T d ⟨false, BitVec.ofNat 32 d⟩)) : MeasuringPhase s l T after := by
  obtain ⟨hs, hop, hm, hreset⟩ := h
  refine ⟨fun d hd hheld => ?_, fun hheld => ⟨_, hp.step_of_holdsPast hs hop hm hheld hreset⟩⟩
  rw [← hafter d hd]
  exact hp.step_of_holdsFor hs hop hm hd hheld (hreset.within rfl le_rfl (by omega))

/-! ### The bit of a cell (42 R125) -/

theorem shiftIn_eq_ofNat (b : Byte) (x : Bool) : shiftIn b x = BitVec.ofNat 8 (2 * b.toNat + x.toNat) :=
  BitVec.eq_of_toNat_eq (by simp [toNat_shiftIn])

/-- A measured duration is below 2^32, so its word has it in full. -/
theorem decodedBit_ofNat {d : Nat} {T : U32} (hd : d ≤ T.toNat) (threshold : U32) :
    decodedBit (BitVec.ofNat 32 d) threshold = decide (threshold.toNat < d) := by
  have hdur : (BitVec.ofNat 32 d).toNat = d := Nat.mod_eq_of_lt (hd.trans_lt T.isLt)
  exact decide_eq_decide.mpr (by rw [BitVec.lt_def, hdur])

/-- The counter and the phase after a bit. -/
theorem appendBit_eq {s : State} (hn : s.fdBitidx.toNat < 40) : appendBit s =
    State.enter (if s.fdBitidx.toNat + 1 = 40 then .validate else .bitLoopLow)
      { s with fdFrame := s.fdFrame.append s.fdBitidx.toNat (decodedBit s.ptMeas.durationUs s.cfg.bitThresholdUs),
               fdBitidx := BitVec.ofNat 6 (s.fdBitidx.toNat + 1) } := by
  have hcount : s.fdBitidx + 1#6 = BitVec.ofNat 6 (s.fdBitidx.toNat + 1) :=
    BitVec.eq_of_toNat_eq (by simp [BitVec.toNat_add])
  have hlast : BitVec.ofNat 6 (s.fdBitidx.toNat + 1) = BitVec.ofNat 6 Config.nBits ↔ s.fdBitidx.toNat + 1 = 40 := by
    rw [← BitVec.toNat_inj, BitVec.toNat_ofNat, Nat.mod_eq_of_lt (by omega)]
    rfl
  simp only [appendBit, hcount, hlast]

/-- What one more bit does to the frame, in integers (30 R74). -/
theorem append_decodedBit {f : Frame} {n d : Nat} {T : U32} (hn : n < 40) (hd : d ≤ T.toNat) (threshold : U32) :
    f.append n (decodedBit (BitVec.ofNat 32 d) threshold) =
      withByte f (n / 8) (BitVec.ofNat 8 (2 * (byteAt f (n / 8)).toNat + (if threshold.toNat < d then 1 else 0))) := by
  rw [append_eq_withByte f hn, shiftIn_eq_ofNat, decodedBit_ofNat hd, Bool.toNat, Bool.cond_decide]

/-! ### Validate and Convert (42 R127, R128) -/

theorem checksumOk_iff {f : Frame} : f.checksumOk = true ↔
    (f.byte0.toNat + f.byte1.toNat + f.byte2.toNat + f.byte3.toNat) % 256 = f.byte4.toNat :=
  beq_iff_eq

theorem validate_of_checksumOk {s : State} (h : s.fdFrame.checksumOk = true) : validate s = s.enter .convert :=
  if_pos h

theorem validate_of_not_checksumOk {s : State} (h : ¬ s.fdFrame.checksumOk = true) :
    validate s = s.abort .checksumError :=
  if_neg h

theorem step_validate {s : State} (hp : s.fdPhase = .validate) (hop : s.op = none)
    (hrst : s.env.rstAt s.now = false) : step s = .next (validate s) :=
  step_of_runPhase hop hrst (runPhase_next.mpr (.inr (.inr (.inl ⟨hp, rfl⟩)))) (validate_world s).2.2

theorem step_convert {s : State} (hp : s.fdPhase = .convert) (hop : s.op = none) (hrst : s.env.rstAt s.now = false)
    (hf : s.cfg.family = .tenths16) : step s = .next (s.returnOk s.fdFrame.hum16 s.fdFrame.temp16) :=
  step_of_runPhase hop hrst (runPhase_next.mpr (.inr (.inr (.inr (.inl ⟨hp, hf, rfl⟩))))) rfl

theorem step_convert_refuses {s : State} (hp : s.fdPhase = .convert) (hop : s.op = none)
    (hrst : s.env.rstAt s.now = false) (hf : s.cfg.family ≠ .tenths16) : step s = .refused .familyNotSpecified := by
  rw [step_of_no_op hrst hop, runPhase, hp]
  cases hfam : s.cfg.family with
  | tenths16 => exact absurd hfam hf
  | other id => simp [convert, hfam, onNext]

theorem toNat_append_byte {n : Nat} (x : BitVec n) (y : Byte) : (x ++ y).toNat = x.toNat * 256 + y.toNat := by
  rw [BitVec.toNat_append, ← Nat.shiftLeft_add_eq_or_of_lt y.isLt, Nat.shiftLeft_eq]

theorem hum16_toNat (f : Frame) : f.hum16.toNat = f.byte0.toNat * 256 + f.byte1.toNat :=
  toNat_append_byte _ _

theorem mag15_toNat (f : Frame) : f.mag15.toNat = f.byte2.toNat % 128 * 256 + f.byte3.toNat := by
  rw [Frame.mag15, toNat_append_byte]
  simp

theorem temp16_toInt (f : Frame) : f.temp16.toInt =
    (if f.byte2.getLsbD 7 then -1 else 1) * ((f.byte2.toNat % 128 * 256 + f.byte3.toNat : Nat) : Int) := by
  have hmag := f.mag15.isLt
  rw [← mag15_toNat, Frame.temp16]
  split <;> rw [BitVec.toInt_eq_toNat_cond, BitVec.toNat_ofNat] <;> split <;> omega

end Sys2Proof.Machine

namespace Sys2Proof.Safety

open Sys2Proof.Machine Sys2Proof.Claims

/-! ### The transition table (42 R131) -/

/-- What a step that no reset touches does: the operation on the interface, or the phase's own computation or idle tick. -/
def Runs (s t : State) : Prop :=
  (∃ w, s.op = some w ∧ runOp w s = .next t) ∨ (s.op = none ∧ runPhase s = .next t)

theorem Runs.op {s t : State} (h : Runs s t) {w : OpWord} (hop : s.op = some w) : runOp w s = .next t := by
  simpa [Runs, hop] using h

theorem Runs.phase {s t : State} (h : Runs s t) (hop : s.op = none) : runPhase s = .next t := by
  simpa [Runs, hop] using h

/-- A step is one tick of reset, an operation or computation that a reset cuts short, or one that none touches. -/
theorem step_reset_cases {s t : State} (h : step s = .next t) :
    (¬ NoReset s s.now t.now ∧ t = s.resetAt t.now) ∨
    (NoReset s s.now t.now ∧ Runs s t) := by
  obtain ⟨hrst, rfl⟩ | ⟨hrst, u, rfl, hrun⟩ := step_next.mp h
  · exact .inl ⟨fun hno => hno _ (rstAt_iff.mp hrst) ⟨le_rfl, Nat.le_succ _⟩, rfl⟩
  · obtain ⟨heq, hnone⟩ | ⟨r, hmem, hlt, -, heq, -⟩ := orReset_cases s u <;> rw [heq]
    · refine .inr ⟨fun r hmem hin => ?_, hrun⟩
      obtain hlt | rfl := hin.1.lt_or_eq
      · exact absurd (hnone r hmem hlt) hin.2.not_gt
      · rw [rstAt_iff.mpr hmem] at hrst
        cases hrst
    · exact .inl ⟨fun hno => hno r hmem ⟨hlt.le, le_rfl⟩, rfl⟩

theorem measuringRow_of_runs {s t : State} {p q : Phase} {l : Level} {T : U32} {next : State → State}
    (hp : Measures s.cfg p l T next) (hs : s.fdPhase = p) (hfit : OpFits s) (hrun : Runs s t)
    (hq : ∀ u, t = next u → t.fdPhase = q) : TransitionRow.measuringRow s t T q := by
  have hop : s.op = some (encode (.measureWhile l T)) := by
    rw [(opFits_listens (by rw [hs]; cases hp <;> rfl)).mp hfit, hs, hp.firstOp_eq]
    rfl
  obtain ⟨u, ht, hto, hle, hnow⟩ | htimeout := hp.runOp_cases hs (hrun.op hop)
  · exact .inl ⟨hto, hle, hq u ht, hnow⟩
  · exact .inr htimeout

/-- Validate and Convert have no operation (30 R86). -/
theorem opFits_computation {s : State} (hp : s.fdPhase = .validate ∨ s.fdPhase = .convert) : OpFits s ↔ s.op = none := by
  obtain hp | hp := hp <;> simp [OpFits, hp]

theorem transitionRow_of_runs {s t : State} (hfit : OpFits s) (hrun : Runs s t) : TransitionRow s t := by
  unfold TransitionRow
  cases hp : s.fdPhase
  case idle =>
    obtain ⟨hop, -⟩ := (opFits_idle hp).mp hfit
    obtain ⟨hread, hexec⟩ | ⟨hread, rfl⟩ :
        s.hostIssuesRead = true ∧ execRead s = .next t ∨ s.hostIssuesRead = false ∧ t = s.idleTick := by
      simpa [hp] using runPhase_next.mp (hrun.phase hop)
    · obtain ⟨-, hbusy, -⟩ := hostIssuesRead_iff.mp hread
      obtain rfl : t = s.acceptRead := by simpa [hbusy] using execRead_next.mp hexec
      exact .inl ⟨hread, rfl, rfl⟩
    · exact .inr ⟨hread, hp, rfl⟩
  case requestPulseLow =>
    obtain ⟨hop, -⟩ | ⟨hop, -⟩ := (opFits_requestPulseLow hp).mp hfit
    · cases (hrun.op hop).symm.trans (runOp_driveLow hp)
      exact .inl ⟨hop, hp, rfl⟩
    · cases (hrun.op hop).symm.trans (runOp_delay_requestPulseLow hp _)
      exact .inr ⟨hop, rfl, rfl⟩
  case requestPulseRelease =>
    obtain ⟨hop, -⟩ | ⟨hop, -⟩ | ⟨hop, -⟩ := (opFits_requestPulseRelease hp).mp hfit
    · cases (hrun.op hop).symm.trans (runOp_releaseHigh hp)
      exact .inl ⟨hop, hp, rfl⟩
    · cases (hrun.op hop).symm.trans (runOp_delay_requestPulseRelease hp _)
      exact .inr (.inl ⟨hop, hp, rfl⟩)
    · cases (hrun.op hop).symm.trans (runOp_switchToInput hp)
      exact .inr (.inr ⟨hop, rfl, rfl⟩)
  case awaitResponseLow => exact measuringRow_of_runs .ackLow hp hfit hrun (by rintro u rfl; rfl)
  case awaitResponseHigh => exact measuringRow_of_runs .ackHigh hp hfit hrun (by rintro u rfl; rfl)
  case bitLoopLow => exact measuringRow_of_runs .bitLow hp hfit hrun (by rintro u rfl; rfl)
  case bitLoopHigh => exact measuringRow_of_runs .bitHigh hp hfit hrun (by rintro u rfl; rfl)
  case validate =>
    have hop := (opFits_computation (.inl hp)).mp hfit
    obtain rfl : t = validate s := by simpa [hp] using runPhase_next.mp (hrun.phase hop)
    refine ⟨(validate_world s).2.2, ?_⟩
    by_cases hsum : s.fdFrame.checksumOk = true
    · exact .inl ⟨checksumOk_iff.mp hsum, by rw [validate_of_checksumOk hsum]; rfl⟩
    · exact .inr ⟨mt checksumOk_iff.mpr hsum, by rw [validate_of_not_checksumOk hsum]; exact ⟨rfl, rfl⟩⟩
  case convert =>
    have hop := (opFits_computation (.inr hp)).mp hfit
    obtain ⟨-, rfl⟩ : s.cfg.family = .tenths16 ∧ t = s.returnOk s.fdFrame.hum16 s.fdFrame.temp16 := by
      simpa [hp] using runPhase_next.mp (hrun.phase hop)
    exact ⟨rfl, rfl, rfl⟩

end Sys2Proof.Safety

namespace Sys2Proof.Proofs

open Sys2Proof.Machine Sys2Proof.Safety Sys2Proof.Claims

/-- Settles O21: the five states are the ones the five operations leave, each of them a step by `step_of_runOp`. -/
theorem requestPulse : Obligations.RequestPulse := by
  intro s _ hreset
  refine ⟨s.driven, s.startHeld, s.released, s.releaseHeld, s.listening, step_acceptRead hreset, step_driven hreset,
    step_startHeld hreset, step_released hreset, step_releaseHeld hreset, rfl, rfl, rfl, rfl,
    fun t _ _ => lineAt_eq_low.mpr (.inl rfl), ?_, rfl, ?_, rfl, rfl, rfl, rfl, rfl, rfl, rfl, ?_, rfl, rfl, rfl⟩
  · exact congrArg some (encode_delay _)
  · exact congrArg some (encode_delay _)
  · exact lineAt_of_not_outLow nofun

/-- Settles O22, as the first of the phases that measure. -/
theorem awaitResponseLow : Obligations.AwaitResponseLow :=
  fun _ h => Measures.ackLow.measuringPhase h fun _ _ => rfl

/-- Settles O23; the bit counter is cleared with the phase. -/
theorem awaitResponseHigh : Obligations.AwaitResponseHigh :=
  fun _ h => Measures.ackHigh.measuringPhase h fun _ _ => rfl

/-- Settles O24, as the third of the phases that measure. -/
theorem bitLoopLow : Obligations.BitLoopLow :=
  fun _ h => Measures.bitLow.measuringPhase h fun _ _ => rfl

/-- Settles O25: what follows the pulse is `appendBit`, its bit and its counter read as numbers. -/
theorem bitLoopHigh : Obligations.BitLoopHigh := by
  refine fun s h hn => Measures.bitHigh.measuringPhase h fun d hd => ?_
  rw [← append_decodedBit hn hd]
  refine (appendBit_eq (by exact hn)).trans ?_
  change State.enter (if s.fdBitidx.toNat + 1 = 40 then _ else _) _ = _
  split_ifs <;> rfl

/-- Settles O26: the check is the sum in integers, and no time passes for a reset to come in. -/
theorem validateChecksTheSum : Obligations.ValidateChecksTheSum := by
  refine fun s hp hop hrst => ⟨fun hsum => ?_, fun hsum => ?_⟩ <;> rw [step_validate hp hop hrst]
  · rw [validate_of_checksumOk (checksumOk_iff.mpr hsum)]
    exact congrArg (fun o => Host.Outcome.next { s.enter .convert with op := o }) hop.symm
  · rw [validate_of_not_checksumOk (mt checksumOk_iff.mp hsum)]
    exact congrArg (fun o => Host.Outcome.next { s.abort .checksumError with op := o }) hop.symm

/-- Settles O27, with the two fields of the reading as integers. -/
theorem convertMakesTheReading : Obligations.ConvertMakesTheReading := by
  refine fun s hp hop hrst => ⟨fun hf => ⟨s.fdFrame.hum16, s.fdFrame.temp16, ?_, hum16_toNat _, temp16_toInt _,
    temp16_ne _⟩, step_convert_refuses hp hop hrst⟩
  rw [step_convert hp hop hrst hf]
  exact congrArg (fun o => Host.Outcome.next { s.returnOk s.fdFrame.hum16 s.fdFrame.temp16 with op := o }) hop.symm

/-- Settles O30: a step no reset touches is the operation or the computation of its phase, and each has its row. -/
theorem transitionTableIsComplete : Obligations.TransitionTableIsComplete := by
  intro s t h hstep
  obtain ⟨hreset, ht⟩ | ⟨hreset, hrun⟩ := step_reset_cases hstep
  · exact ⟨fun hno => absurd hno hreset, fun _ => ⟨ht, ht ▸ resetValues_resetAt s _⟩⟩
  · exact ⟨fun _ => transitionRow_of_runs h.op_fits hrun, fun hno => absurd hreset hno⟩

/-- Settles O17: the word of READ, and what acceptance writes. -/
theorem readIsAcceptedWhenNotBusy : Obligations.ReadIsAcceptedWhenNotBusy :=
  ⟨decode_eq_ok.mpr rfl, fun _ hb => execRead_next.mpr (.inl ⟨hb, rfl⟩)⟩

end Sys2Proof.Proofs

namespace Sys2Proof.Safety

open Sys2Proof.Machine Sys2Proof.Claims Sys2Proof.Config

/-! ### The pulse of the closed form (41 R111) -/

theorem pulse_eq_some {line : Nat → Level} {l : Level} {T t d : Nat} :
    pulse line l T t = some d ↔ d ≤ T ∧ HoldsFor line l t d := by
  simp only [pulse, List.find?_range_eq_some, decide_eq_true_eq, List.mem_range, HoldsFor, Bool.not_eq_true',
    decide_eq_false_iff_not, not_not]
  rw [Nat.lt_succ_iff]
  tauto

theorem pulse_eq_none {line : Nat → Level} {l : Level} {T t : Nat} :
    pulse line l T t = none ↔ HoldsPast line l t T := by
  simp [pulse, HoldsPast]

/-! ### The closed form from the bit loop on, and its equations (42 R133) -/

/-- The outcome and the end of a read in which `bits` have arrived and `n` cells from tick `t` on are to come. -/
def outcomeFromCells (c : Params) (line : Nat → Level) (bits : List Bool) (n t : Nat) : ReadResult × Nat :=
  match bitCells c line n t with
  | .error e => (.timeout, e)
  | .ok (rest, e) => (outcomeOfBits (bits ++ rest), e)

section ClosedForm

variable {c : Params} {line : Nat → Level} {bits : List Bool} {n t : Nat}

theorem outcomeFromCells_zero : outcomeFromCells c line bits 0 t = (outcomeOfBits bits, t) := by
  simp [outcomeFromCells, bitCells]

theorem outcomeFromCells_low_none (hlow : pulse line .low c.toBitLowUs.toNat t = none) :
    outcomeFromCells c line bits (n + 1) t = (.timeout, t + c.toBitLowUs.toNat + 1) := by
  simp [outcomeFromCells, bitCells, hlow]

section LowPulse

variable {d : Nat} (hlow : pulse line .low c.toBitLowUs.toNat t = some d)
include hlow

theorem outcomeFromCells_high_none (hhigh : pulse line .high c.toBitHighUs.toNat (t + d) = none) :
    outcomeFromCells c line bits (n + 1) t = (.timeout, t + d + c.toBitHighUs.toNat + 1) := by
  simp [outcomeFromCells, bitCells, hlow, hhigh]

theorem outcomeFromCells_succ {h : Nat} (hhigh : pulse line .high c.toBitHighUs.toNat (t + d) = some h) :
    outcomeFromCells c line bits (n + 1) t =
      outcomeFromCells c line (bits ++ [decide (c.bitThresholdUs.toNat < h)]) n (t + d + h) := by
  simp only [outcomeFromCells, bitCells, hlow, hhigh]
  cases bitCells c line n (t + d + h) <;> simp

end LowPulse

theorem readOutcome_low_none (hlow : pulse line .low c.toAckLowUs.toNat t = none) :
    readOutcome c line t = (.timeout, t + c.toAckLowUs.toNat + 1) := by
  simp [readOutcome, hlow]

section AckLow

variable {a : Nat} (hlow : pulse line .low c.toAckLowUs.toNat t = some a)
include hlow

theorem readOutcome_high_none (hhigh : pulse line .high c.toAckHighUs.toNat (t + a) = none) :
    readOutcome c line t = (.timeout, t + a + c.toAckHighUs.toNat + 1) := by
  simp [readOutcome, hlow, hhigh]

theorem readOutcome_cells {b : Nat} (hhigh : pulse line .high c.toAckHighUs.toNat (t + a) = some b) :
    readOutcome c line t = outcomeFromCells c line [] 40 (t + a + b) := by
  simp only [readOutcome, outcomeFromCells, hlow, hhigh, nBits]
  cases bitCells c line 40 (t + a + b) <;> rfl

end AckLow

theorem le_outcomeFromCells : t ≤ (outcomeFromCells c line bits n t).2 := by
  induction n generalizing bits t with
  | zero => rw [outcomeFromCells_zero]
  | succ n ih =>
    cases hlow : pulse line .low c.toBitLowUs.toNat t with
    | none => rw [outcomeFromCells_low_none hlow, Nat.add_assoc]; exact Nat.le_add_right _ _
    | some d =>
      cases hhigh : pulse line .high c.toBitHighUs.toNat (t + d) with
      | none => rw [outcomeFromCells_high_none hlow hhigh, Nat.add_assoc, Nat.add_assoc]; exact Nat.le_add_right _ _
      | some h =>
        rw [outcomeFromCells_succ hlow hhigh]
        exact (Nat.le_add_right _ _).trans ((Nat.le_add_right _ _).trans ih)

end ClosedForm

/-! ### The bytes of the bits in order of arrival (20 R53, 42 R125) -/

/-- The next bit goes to the low end of its byte. -/
theorem byteOfBits_append (bits : List Bool) (b : Bool) (i : Nat) :
    byteOfBits (bits ++ [b]) i =
      if i = bits.length / 8 then 2 * byteOfBits bits i + b.toNat else byteOfBits bits i := by
  unfold byteOfBits
  obtain hlt | heq | hgt := lt_trichotomy i (bits.length / 8)
  · rw [if_neg hlt.ne, List.drop_append_of_le_length (by omega), List.take_append_of_le_length (by simp; omega)]
  · rw [if_pos heq, List.drop_append_of_le_length (by omega), List.take_of_length_le (by simp; omega),
      List.take_of_length_le (by simp; omega), List.foldl_append]
    rfl
  · rw [if_neg hgt.ne', List.drop_of_length_le (by simp; omega), List.drop_of_length_le (by omega)]

theorem foldl_bits_lt (bits : List Bool) : bits.foldl (fun a b => 2 * a + b.toNat) 0 < 2 ^ bits.length := by
  induction bits using List.reverseRecOn with
  | nil => simp
  | append_singleton bits b ih =>
    have hb := b.toNat_le
    rw [List.foldl_append, List.length_append, List.length_singleton, Nat.pow_succ]
    simp only [List.foldl_cons, List.foldl_nil]
    omega

/-- A byte that is not full has room for one more bit. -/
theorem byteOfBits_lt_of_not_full {bits : List Bool} {i : Nat} (hi : bits.length < 8 * i + 8) :
    byteOfBits bits i < 2 ^ 7 :=
  (foldl_bits_lt _).trans_le (Nat.pow_le_pow_right (by decide) (by simp; omega))

/-- The bytes of `f` are those of the bits that have arrived. -/
def BytesOf (bits : List Bool) (f : Frame) : Prop := ∀ i < 5, (byteAt f i).toNat = byteOfBits bits i

theorem bytesOf_nil : BytesOf [] Frame.zero := by
  intro i hi
  interval_cases i <;> rfl

theorem BytesOf.append {bits : List Bool} {f : Frame} (h : BytesOf bits f) (hn : bits.length < 40) (b : Bool) :
    BytesOf (bits ++ [b]) (f.append bits.length b) := by
  intro i hi
  have hb := b.toNat_le
  rw [append_eq_withByte f hn, byteAt_withByte f hi (by omega), byteOfBits_append]
  split
  case isTrue hin =>
    have hroom := byteOfBits_lt_of_not_full (bits := bits) (i := i) (by omega)
    rw [← hin, toNat_shiftIn, h i hi, Nat.mod_eq_of_lt (by omega)]
  case isFalse => exact h i hi

/-! ### The outcome of a frame (42 R127, R128) -/

theorem getLsbD_seven_iff {b : Byte} : b.getLsbD 7 = true ↔ 128 ≤ b.toNat := by
  have hmsb : b.getLsbD 7 = b.msb := b.msb_eq_getLsbD_last.symm
  rw [hmsb, BitVec.msb_eq_decide, decide_eq_true_iff]

theorem outcomeOfBytes_frame (f : Frame) :
    outcomeOfBytes f.byte0.toNat f.byte1.toNat f.byte2.toNat f.byte3.toNat f.byte4.toNat =
      if f.checksumOk then .ok f.hum16 f.temp16 else .checksumError := by
  have hhum : BitVec.ofNat 16 (f.byte0.toNat * 256 + f.byte1.toNat) = f.hum16 := by
    rw [← hum16_toNat, BitVec.ofNat_toNat, BitVec.setWidth_eq]
  have htemp : (if 128 ≤ f.byte2.toNat then - ((f.byte2.toNat % 128 * 256 + f.byte3.toNat : Nat) : Int)
      else ((f.byte2.toNat * 256 + f.byte3.toNat : Nat) : Int)) = f.temp16.toInt := by
    rw [temp16_toInt]
    simp only [getLsbD_seven_iff]
    split <;> omega
  rw [outcomeOfBytes, hhum, htemp, BitVec.ofInt_toInt]
  simp only [checksumOk_iff]

theorem BytesOf.outcome {bits : List Bool} {f : Frame} (h : BytesOf bits f) :
    outcomeOfBits bits = if f.checksumOk then .ok f.hum16 f.temp16 else .checksumError := by
  rw [← outcomeOfBytes_frame, outcomeOfBits, ← h 0 (by decide), ← h 1 (by decide), ← h 2 (by decide), ← h 3 (by decide),
    ← h 4 (by decide)]
  rfl

/-! ### How a read ends (42 R133, R136) -/

theorem reachesIdle_zero {s : State} (hb : s.resBusy = false) (hp : s.fdPhase = .idle) : ReachesIdle s 0 s :=
  ⟨rfl, hb, hp, nofun⟩

theorem reachesIdle_succ {s t u : State} {k : Nat} (hb : s.resBusy = true) (hstep : step s = .next u)
    (h : ReachesIdle u k t) : ReachesIdle s (k + 1) t := by
  obtain ⟨hrun, hend, hp, hbusy⟩ := h
  refine ⟨runSteps_succ_next.mpr ⟨u, hstep, hrun⟩, hend, hp, fun j hj => ?_⟩
  cases j with
  | zero => exact ⟨s, rfl, hb⟩
  | succ j =>
    obtain ⟨v, hv, hvb⟩ := hbusy j (by omega)
    exact ⟨v, runSteps_succ_next.mpr ⟨u, hstep, hv⟩, hvb⟩

/-- Within `k` steps `s` reaches Idle for the first time, with the outcome and at the tick of `r`, in input mode and listening. -/
def EndsWith (s : State) (k : Nat) (r : ReadResult × Nat) : Prop :=
  ∃ (j : Nat) (t : State), j ≤ k ∧ ReachesIdle s j t ∧ t.ports = r.1.ports ∧ t.now = r.2 ∧
    t.ldMode = .input ∧ t.fdOwner = .listening

theorem EndsWith.of_step {s u : State} {k : Nat} {r : ReadResult × Nat} (h : EndsWith u k r) (hb : s.resBusy = true)
    (hstep : step s = .next u) : EndsWith s (k + 1) r := by
  obtain ⟨j, t, hj, hreach, hend⟩ := h
  exact ⟨j + 1, t, Nat.succ_le_succ hj, reachesIdle_succ hb hstep hreach, hend⟩

theorem EndsWith.mono {s : State} {k k' : Nat} {r : ReadResult × Nat} (h : EndsWith s k r) (hk : k ≤ k') :
    EndsWith s k' r := by
  obtain ⟨j, t, hj, hend⟩ := h
  exact ⟨j, t, hj.trans hk, hend⟩

/-! ### A read that listens (42 R122 to R125) -/

/-- The output ports while a read listens. -/
def busyPorts : Ports := ⟨false, true, false, false, 0b00#2, 0#16, 0#16⟩

/-- `s` is at the start of phase `p` of a read that listens: the phase's operation is issued and no outcome is shown. -/
structure ListensAt (p : Phase) (s : State) : Prop where
  phase : s.fdPhase = p
  op : s.op = (firstOp s.cfg p).map encode
  mode : s.ldMode = .input
  owner : s.fdOwner = .listening
  ports : s.ports = busyPorts

theorem ListensAt.busy {p : Phase} {s : State} (h : ListensAt p s) : s.resBusy = true :=
  congrArg Ports.busy h.ports

/-- Entering the next phase writes none of the registers `ListensAt` is about but the phase and the operation. -/
theorem ListensAt.enter {p : Phase} {s : State} (h : ListensAt p s) (q : Phase) (l : Level) (T : U32) (d : Nat)
    (m : PulseMeas) (n : BitVec 6) (f : Frame) :
    ListensAt q (State.enter q { afterMeasurement s.takeOp l T d m with fdBitidx := n, fdFrame := f }) :=
  ⟨rfl, rfl, h.mode, h.owner, h.ports⟩

theorem ReadResult.ports_busy (r : ReadResult) : r.ports.busy = false := by
  cases r <;> rfl

theorem ReadResult.ports_done (r : ReadResult) : r.ports.done = true := by
  cases r <;> rfl

/-- The read ends in this step. -/
theorem ListensAt.ends {p : Phase} {s t : State} {r : ReadResult} {now : Nat} (h : ListensAt p s)
    (hstep : step s = .next t) (hidle : t.fdPhase = .idle) (hmode : t.ldMode = s.ldMode) (howner : t.fdOwner = s.fdOwner)
    (hnow : t.now = now) (hports : t.ports = r.ports) : EndsWith s 1 (r, now) := by
  have hb : t.resBusy = false := (congrArg Ports.busy hports).trans r.ports_busy
  exact EndsWith.of_step ⟨0, t, le_rfl, reachesIdle_zero hb hidle, hports, hnow, hmode.trans h.mode, howner.trans h.owner⟩
    h.busy hstep

section Measures

variable {s : State} {p : Phase} {l : Level} {T : U32} {next : State → State} (hp : Measures s.cfg p l T next)
  (h : ListensAt p s)
include hp h

theorem ListensAt.op_measureWhile : s.op = some (encode (.measureWhile l T)) := by
  rw [h.op, hp.firstOp_eq]
  rfl

theorem ListensAt.step_of_pulse {d : Nat} (hpulse : pulse (freeLine s.env) l T.toNat s.now = some d)
    (hreset : NoReset s s.now (s.now + d)) :
    step s = .next (next (afterMeasurement s.takeOp l T d ⟨false, BitVec.ofNat 32 d⟩)) := by
  obtain ⟨hd, hheld⟩ := pulse_eq_some.mp hpulse
  exact hp.step_of_holdsFor h.phase (h.op_measureWhile hp) h.mode hd hheld hreset

theorem ListensAt.ends_of_no_pulse (hpulse : pulse (freeLine s.env) l T.toNat s.now = none)
    (hreset : NoReset s s.now (s.now + T.toNat + 1)) : EndsWith s 1 (.timeout, s.now + T.toNat + 1) := by
  have hstep := hp.step_of_holdsPast h.phase (h.op_measureWhile hp) h.mode (pulse_eq_none.mp hpulse) hreset
  exact h.ends hstep rfl rfl rfl rfl
    (congrArg (fun q : Ports => { q with busy := false, done := true, err := 0b01#2 }) h.ports)

end Measures

/-- Forty bits have arrived: Validate ends the read, or Convert after it. -/
theorem ListensAt.ends_of_validate {s : State} (h : ListensAt .validate s) (hfam : s.cfg.family = .tenths16)
    (hreset : NoReset s s.now s.now) {bits : List Bool} (hbits : BytesOf bits s.fdFrame) :
    EndsWith s 2 (outcomeOfBits bits, s.now) := by
  have hrst := hreset.rstAt_now le_rfl
  have hstep := step_validate h.phase h.op hrst
  rw [hbits.outcome]
  by_cases hsum : s.fdFrame.checksumOk = true
  · rw [validate_of_checksumOk hsum] at hstep
    have hconvert : ListensAt .convert (s.enter .convert) := ⟨rfl, rfl, h.mode, h.owner, h.ports⟩
    rw [if_pos hsum]
    have hstep' := step_convert (s := s.enter .convert) rfl rfl hrst hfam
    refine EndsWith.of_step ?_ h.busy hstep
    exact hconvert.ends hstep' rfl rfl rfl rfl (congrArg (fun q : Ports => { q with
      busy := false, done := true, valid := true, hum := s.fdFrame.hum16, temp := s.fdFrame.temp16 }) h.ports)
  · rw [validate_of_not_checksumOk hsum] at hstep
    rw [if_neg hsum]
    exact (h.ends hstep rfl rfl rfl rfl (congrArg (fun q : Ports => { q with
      busy := false, done := true, err := 0b10#2 }) h.ports)).mono (by decide)

/-- `bits` have arrived, and the next cell begins, or Validate after the last. -/
structure AtCell (bits : List Bool) (s : State) : Prop where
  listens : ListensAt (if bits.length = 40 then .validate else .bitLoopLow) s
  count : s.fdBitidx.toNat = bits.length
  bytes : BytesOf bits s.fdFrame

/-- The high pulse of a cell brings its bit and leads to the next cell. -/
theorem atCell_appendBit {bits : List Bool} {s : State} (h : ListensAt .bitLoopHigh s) (hcount : s.fdBitidx.toNat = bits.length)
    (hbytes : BytesOf bits s.fdFrame) (hn : bits.length < 40) {w : Nat} (hw : w ≤ s.cfg.toBitHighUs.toNat) :
    AtCell (bits ++ [decide (s.cfg.bitThresholdUs.toNat < w)])
      (appendBit (afterMeasurement s.takeOp .high s.cfg.toBitHighUs w ⟨false, BitVec.ofNat 32 w⟩)) := by
  have hlt : s.fdBitidx.toNat < 40 := hcount.trans_lt hn
  refine ⟨?_, ?_, ?_⟩
  · rw [appendBit_eq (by exact hlt), List.length_append, List.length_singleton, ← hcount]
    exact h.enter _ _ _ _ _ _ _
  · rw [appendBit_fdBitidx (by exact hlt), List.length_append, List.length_singleton, ← hcount]
    rfl
  · have hbit := hbytes.append hn (decide (s.cfg.bitThresholdUs.toNat < w))
    rw [← decodedBit_ofNat hw] at hbit ⊢
    rw [← hcount] at hbit
    exact hbit

/-- A read at a bit cell ends as the closed form says, by induction on the cells to come (42 R133). -/
theorem AtCell.ends {n : Nat} {bits : List Bool} {s : State} (h : AtCell bits s) (hn : bits.length + n = 40)
    (hfam : s.cfg.family = .tenths16)
    (hreset : NoReset s s.now (outcomeFromCells s.cfg (freeLine s.env) bits n s.now).2) :
    EndsWith s (2 * n + 2) (outcomeFromCells s.cfg (freeLine s.env) bits n s.now) := by
  induction n generalizing bits s with
  | zero =>
    obtain ⟨hlistens, -, hbytes⟩ := h
    rw [if_pos (by omega)] at hlistens
    rw [outcomeFromCells_zero] at hreset ⊢
    exact hlistens.ends_of_validate hfam hreset hbytes
  | succ n ih =>
    obtain ⟨hlow, hcount, hbytes⟩ := h
    rw [if_neg (by omega)] at hlow
    cases hpulse : pulse (freeLine s.env) .low s.cfg.toBitLowUs.toNat s.now with
    | none =>
      rw [outcomeFromCells_low_none hpulse] at hreset ⊢
      exact (hlow.ends_of_no_pulse .bitLow hpulse hreset).mono (by omega)
    | some d =>
      have hhigh := hlow.enter .bitLoopHigh .low s.cfg.toBitLowUs d ⟨false, BitVec.ofNat 32 d⟩ s.fdBitidx s.fdFrame
      cases hpulse' : pulse (freeLine s.env) .high s.cfg.toBitHighUs.toNat (s.now + d) with
      | none =>
        rw [outcomeFromCells_high_none hpulse hpulse'] at hreset ⊢
        have hstep := hlow.step_of_pulse .bitLow hpulse (hreset.within rfl le_rfl (by simp; omega))
        refine EndsWith.mono (EndsWith.of_step ?_ hlow.busy hstep) (show 1 + 1 ≤ 2 * (n + 1) + 2 by omega)
        exact hhigh.ends_of_no_pulse .bitHigh hpulse' (hreset.within rfl (Nat.le_add_right _ _) le_rfl)
      | some w =>
        rw [outcomeFromCells_succ hpulse hpulse'] at hreset ⊢
        have hstep := hlow.step_of_pulse .bitLow hpulse
          (hreset.within rfl le_rfl ((Nat.le_add_right _ _).trans le_outcomeFromCells))
        have hstep' := hhigh.step_of_pulse .bitHigh hpulse'
          (hreset.within rfl (Nat.le_add_right _ _) le_outcomeFromCells)
        have hnext := atCell_appendBit hhigh hcount hbytes (by omega) (pulse_eq_some.mp hpulse').1
        have hends := ih hnext (by simp; omega) hfam
          (hreset.within rfl ((Nat.le_add_right _ _).trans (Nat.le_add_right _ _)) le_rfl)
        exact (hends.of_step hhigh.busy hstep').of_step hlow.busy hstep

/-- From the tick it listens at, a read ends as the closed form says (42 R133). -/
theorem ListensAt.ends_of_awaitResponseLow {s : State} (h : ListensAt .awaitResponseLow s) (hframe : s.fdFrame = Frame.zero)
    (hfam : s.cfg.family = .tenths16) (hreset : NoReset s s.now (readOutcome s.cfg (freeLine s.env) s.now).2) :
    EndsWith s 84 (readOutcome s.cfg (freeLine s.env) s.now) := by
  cases hpulse : pulse (freeLine s.env) .low s.cfg.toAckLowUs.toNat s.now with
  | none =>
    rw [readOutcome_low_none hpulse] at hreset ⊢
    exact (h.ends_of_no_pulse .ackLow hpulse hreset).mono (by decide)
  | some a =>
    have hhigh := h.enter .awaitResponseHigh .low s.cfg.toAckLowUs a ⟨false, BitVec.ofNat 32 a⟩ s.fdBitidx s.fdFrame
    cases hpulse' : pulse (freeLine s.env) .high s.cfg.toAckHighUs.toNat (s.now + a) with
    | none =>
      rw [readOutcome_high_none hpulse hpulse'] at hreset ⊢
      have hstep := h.step_of_pulse .ackLow hpulse (hreset.within rfl le_rfl (by simp; omega))
      have hends := hhigh.ends_of_no_pulse .ackHigh hpulse' (hreset.within rfl (Nat.le_add_right _ _) le_rfl)
      exact (hends.of_step h.busy hstep).mono (by decide)
    | some b =>
      rw [readOutcome_cells hpulse hpulse'] at hreset ⊢
      have hstep := h.step_of_pulse .ackLow hpulse
        (hreset.within rfl le_rfl ((Nat.le_add_right _ _).trans le_outcomeFromCells))
      have hstep' := hhigh.step_of_pulse .ackHigh hpulse' (hreset.within rfl (Nat.le_add_right _ _) le_outcomeFromCells)
      have hlow := hhigh.enter .bitLoopLow .high s.cfg.toAckHighUs b ⟨false, BitVec.ofNat 32 b⟩ 0#6 s.fdFrame
      have hcell : AtCell [] _ := ⟨hlow, rfl, hframe ▸ bytesOf_nil⟩
      have hends := hcell.ends (n := 40) rfl hfam
        (hreset.within rfl ((Nat.le_add_right _ _).trans (Nat.le_add_right _ _)) le_rfl)
      exact (hends.of_step hhigh.busy hstep').of_step h.busy hstep

theorem le_readOutcome (c : Params) (line : Nat → Level) (t : Nat) : t ≤ (readOutcome c line t).2 := by
  cases hpulse : pulse line .low c.toAckLowUs.toNat t with
  | none => rw [readOutcome_low_none hpulse, Nat.add_assoc]; exact Nat.le_add_right _ _
  | some a =>
    cases hpulse' : pulse line .high c.toAckHighUs.toNat (t + a) with
    | none => rw [readOutcome_high_none hpulse hpulse', Nat.add_assoc, Nat.add_assoc]; exact Nat.le_add_right _ _
    | some b =>
      rw [readOutcome_cells hpulse hpulse']
      exact (Nat.le_add_right _ _).trans ((Nat.le_add_right _ _).trans le_outcomeFromCells)

theorem listensAt_listening (s : State) : ListensAt .awaitResponseLow s.listening :=
  ⟨rfl, rfl, rfl, rfl, rfl⟩

theorem endsWith_readOutcome {s : State} (hfam : s.cfg.family = .tenths16)
    (hreset : NoReset s s.now (readOutcome s.cfg (freeLine s.env) (listenTick s.cfg s.now)).2) :
    EndsWith s.acceptRead 89 (readOutcome s.cfg (freeLine s.env) (listenTick s.cfg s.now)) := by
  have hpulse : NoReset s s.now (listenTick s.cfg s.now) := hreset.within rfl le_rfl (le_readOutcome _ _ _)
  have hends := (listensAt_listening s).ends_of_awaitResponseLow rfl hfam
    (hreset.within rfl (le_listenTick _ _) le_rfl)
  exact ((((hends.of_step rfl (step_releaseHeld hpulse)).of_step rfl (step_released hpulse)).of_step rfl
    (step_startHeld hpulse)).of_step rfl (step_driven hpulse)).of_step rfl (step_acceptRead hpulse)

end Sys2Proof.Safety

namespace Sys2Proof.Proofs

open Sys2Proof.Machine Sys2Proof.Safety Sys2Proof.Claims

/-- Settles O42: the five steps of the request pulse, then phase by phase the pulse the closed form finds, by induction over the
forty cells. -/
theorem readOutcomeIsTheClosedForm : Obligations.ReadOutcomeIsTheClosedForm :=
  fun _ _ hfam hreset => endsWith_readOutcome hfam hreset

end Sys2Proof.Proofs

namespace Sys2Proof.Machine

open Sys2Proof.Claims Sys2Proof.Safety

/-! ### The outcome in the registers (30 R80) -/

theorem errKind_code_inj {a b : ErrKind} : a.code = b.code ↔ a = b := by
  cases a <;> cases b <;> decide

theorem resErr_of_ports {s : State} {p : Ports} (h : s.ports = p) {k : ErrKind} (hk : p.err = k.code) : s.resErr = k :=
  errKind_code_inj.mp ((congrArg Ports.err h).trans hk)

/-! ### The bits of a frame determine its bytes (20 R53) -/

theorem byteAt_eq_of_frameBit {f g : Frame} (h : ∀ n < 40, frameBit f n = frameBit g n) {i : Nat} (hi : i < 5) :
    byteAt f i = byteAt g i := by
  refine BitVec.eq_of_getLsbD_eq fun j hj => ?_
  have hbit := h (8 * i + (7 - j)) (by omega)
  have hbyte : (8 * i + (7 - j)) / 8 = i := by omega
  have hplace : 7 - (8 * i + (7 - j)) % 8 = j := by omega
  rwa [frameBit, frameBit, hbyte, hplace] at hbit

theorem resErr_eq_timeout_iff {s : State} {r : ReadResult} (h : s.ports = r.ports) : s.resErr = .timeout ↔ r = .timeout := by
  cases r with
  | ok hum temp => simp [resErr_of_ports h (k := .none) rfl]
  | timeout => simp [resErr_of_ports h (k := .timeout) rfl]
  | checksumError => simp [resErr_of_ports h (k := .checksumError) rfl]

end Sys2Proof.Machine

namespace Sys2Proof.Safety

open Sys2Proof.Machine Sys2Proof.Claims Sys2Proof.Config

/-! ### A frame on the line (42 R133, 95 S1, S2) -/

theorem bytesOf_foldl_append (bits : Nat → Bool) {n : Nat} (hn : n ≤ 40) :
    BytesOf ((List.range n).map bits) ((List.range n).foldl (fun f k => f.append k (bits k)) Frame.zero) := by
  induction n with
  | zero => exact bytesOf_nil
  | succ n ih =>
    have h := (ih (by omega)).append (by simp; omega) (bits n)
    rw [List.length_map, List.length_range] at h
    simpa [List.range_succ] using h

/-- The frame put together from the bits of `f` has the bytes of `f`. -/
theorem bytesOf_frameBit (f : Frame) : BytesOf ((List.range 40).map (frameBit f)) f := by
  intro i hi
  have hbits := holdsBits_foldl_append (frameBit f) (n := 40) le_rfl
  rw [← byteAt_eq_of_frameBit (fun _ hn => hbits.frameBit_eq hn) hi]
  exact bytesOf_foldl_append (frameBit f) le_rfl i hi

section Carries

variable {c : Params} {line : Nat → Level} {t a b : Nat} {lo hi : Nat → Nat} {f : Frame}
  (h : Carries c line t a b lo hi f)
include h

/-- Cell by cell the closed form finds the bits of the frame. -/
theorem outcomeFromCells_of_carries {n m : Nat} (hm : m + n = 40) :
    outcomeFromCells c line ((List.range m).map (frameBit f)) n (cellStart lo hi (t + a + b) m) =
      (outcomeOfBits ((List.range 40).map (frameBit f)), cellStart lo hi (t + a + b) 40) := by
  induction n generalizing m with
  | zero =>
    obtain rfl : m = 40 := hm
    exact outcomeFromCells_zero
  | succ n ih =>
    obtain ⟨-, -, -, -, hcells⟩ := h
    obtain ⟨hlo, hlow, hhi, hhigh, hbit⟩ := hcells m (by omega)
    have hdecoded : decide (c.bitThresholdUs.toNat < hi m) = frameBit f m := by simp [hbit]
    rw [outcomeFromCells_succ (pulse_eq_some.mpr ⟨hlo, hlow⟩) (pulse_eq_some.mpr ⟨hhi, hhigh⟩), hdecoded]
    have hnext := ih (m := m + 1) (by omega)
    rw [List.range_succ (n := m), List.map_append] at hnext
    exact hnext

theorem readOutcome_of_carries : readOutcome c line t =
    (if f.checksumOk then .ok f.hum16 f.temp16 else .checksumError, cellStart lo hi (t + a + b) 40) := by
  rw [← (bytesOf_frameBit f).outcome, ← outcomeFromCells_of_carries h (n := 40) (m := 0) rfl]
  obtain ⟨ha, hlow, hb, hhigh, -⟩ := h
  exact readOutcome_cells (pulse_eq_some.mpr ⟨ha, hlow⟩) (pulse_eq_some.mpr ⟨hb, hhigh⟩)

end Carries

/-! ### The time bounds (42 R134) -/

/-- `r` ends by `last`, or as a Timeout one tick later, and a Timeout not before `first`. -/
structure EndsBetween (first last : Nat) (r : ReadResult × Nat) : Prop where
  le : r.2 ≤ last + 1
  le_of_outcome : r.1 ≠ .timeout → r.2 ≤ last
  ge_of_timeout : r.1 = .timeout → first ≤ r.2

theorem endsBetween_timeout {first last e : Nat} (hfirst : first ≤ e) (hlast : e ≤ last + 1) :
    EndsBetween first last (.timeout, e) :=
  ⟨hlast, fun hne => absurd rfl hne, fun _ => hfirst⟩

theorem EndsBetween.mono {first last last' : Nat} {r : ReadResult × Nat} (h : EndsBetween first last r)
    (hlast : last ≤ last') : EndsBetween first last' r :=
  ⟨h.le.trans (Nat.succ_le_succ hlast), fun hne => (h.le_of_outcome hne).trans hlast, h.ge_of_timeout⟩

theorem outcomeOfBits_ne_timeout (bits : List Bool) : outcomeOfBits bits ≠ .timeout := by
  unfold outcomeOfBits outcomeOfBytes
  split <;> simp

theorem endsBetween_outcomeFromCells {c : Params} {line : Nat → Level} {bits : List Bool} {first n t : Nat}
    (hlow : first ≤ t + c.toBitLowUs.toNat + 1) (hhigh : first ≤ t + c.toBitHighUs.toNat + 1) :
    EndsBetween first (t + n * (c.toBitLowUs.toNat + c.toBitHighUs.toNat)) (outcomeFromCells c line bits n t) := by
  induction n generalizing bits t with
  | zero =>
    rw [outcomeFromCells_zero, Nat.zero_mul]
    exact ⟨Nat.le_succ t, fun _ => le_rfl, fun hto => absurd hto (outcomeOfBits_ne_timeout bits)⟩
  | succ n ih =>
    rw [Nat.succ_mul]
    cases hpulse : pulse line .low c.toBitLowUs.toNat t with
    | none =>
      rw [outcomeFromCells_low_none hpulse]
      exact endsBetween_timeout (by omega) (by omega)
    | some d =>
      have hd := (pulse_eq_some.mp hpulse).1
      cases hpulse' : pulse line .high c.toBitHighUs.toNat (t + d) with
      | none =>
        rw [outcomeFromCells_high_none hpulse hpulse']
        exact endsBetween_timeout (by omega) (by omega)
      | some w =>
        have hw := (pulse_eq_some.mp hpulse').1
        rw [outcomeFromCells_succ hpulse hpulse']
        exact (ih (by omega) (by omega)).mono (by omega)

/-- After a pulse of the low line there is at least one tick of the high one. -/
theorem ackPulses_pos {line : Nat → Level} {t a b : Nat} (hlow : HoldsFor line .low t a)
    (hhigh : HoldsFor line .high (t + a) b) : 0 < a + b := by
  by_contra hzero
  obtain ⟨rfl, rfl⟩ : a = 0 ∧ b = 0 := by omega
  cases hline : line t
  · exact hlow.2 hline
  · exact hhigh.2 hline

theorem endsBetween_readOutcome_default (line : Nat → Level) (t : Nat) :
    EndsBetween (t + 58) (t + 5410) (readOutcome Params.default line t) := by
  have hlow : Params.default.toAckLowUs.toNat = 85 := rfl
  have hhigh : Params.default.toAckHighUs.toNat = 85 := rfl
  have hbitLow : Params.default.toBitLowUs.toNat = 56 := rfl
  have hbitHigh : Params.default.toBitHighUs.toNat = 75 := rfl
  cases hpulse : pulse line .low Params.default.toAckLowUs.toNat t with
  | none =>
    rw [readOutcome_low_none hpulse]
    exact endsBetween_timeout (by omega) (by omega)
  | some a =>
    obtain ⟨ha, hheld⟩ := pulse_eq_some.mp hpulse
    cases hpulse' : pulse line .high Params.default.toAckHighUs.toNat (t + a) with
    | none =>
      rw [readOutcome_high_none hpulse hpulse']
      exact endsBetween_timeout (by omega) (by omega)
    | some b =>
      obtain ⟨hb, hheld'⟩ := pulse_eq_some.mp hpulse'
      have hpos := ackPulses_pos hheld hheld'
      rw [readOutcome_cells hpulse hpulse']
      exact (endsBetween_outcomeFromCells (by omega) (by omega)).mono (by omega)

end Sys2Proof.Safety

namespace Sys2Proof.Proofs

open Sys2Proof.Machine Sys2Proof.Safety Sys2Proof.Claims Sys2Proof.Config

/-- Settles O43: the closed form finds the frame's pulses cell by cell, so the outcome is the frame's own. -/
theorem aFrameOnTheLineIsRead : Obligations.AFrameOnTheLineIsRead := by
  intro s f a b lo hi _ hfam hcarries hreset
  have houtcome := readOutcome_of_carries hcarries
  obtain ⟨k, t, -, hreach, hports, hnow, -⟩ := endsWith_readOutcome hfam (by rwa [houtcome])
  rw [houtcome] at hports hnow
  refine ⟨k, t, hreach, hnow, fun hsum => ?_, fun hsum => ?_⟩
  · rw [if_pos (checksumOk_iff.mpr hsum)] at hports
    have hhum : t.resHum = f.hum16 := congrArg Ports.hum hports
    have htemp : t.resTemp = f.temp16 := congrArg Ports.temp hports
    rw [hhum, htemp]
    exact ⟨congrArg Ports.valid hports, resErr_of_ports hports rfl, hum16_toNat f, temp16_toInt f⟩
  · rw [if_neg (mt checksumOk_iff.mp hsum)] at hports
    exact ⟨congrArg Ports.valid hports, resErr_of_ports hports rfl, congrArg Ports.hum hports, congrArg Ports.temp hports⟩

/-- Settles O44: the end of the closed form with the default parameters lies within the bounds. -/
theorem everyReadEndsInTime : Obligations.EveryReadEndsInTime := by
  intro s _ hcfg hreset
  have hlisten : listenTick s.cfg s.now = s.now + 20030 := by rw [hcfg]; rfl
  have hbounds := endsBetween_readOutcome_default (freeLine s.env) (s.now + 20030)
  have hends := endsWith_readOutcome (s := s) (by rw [hcfg]; rfl)
  rw [hlisten, hcfg] at hends
  obtain ⟨k, t, hk, hreach, hports, hnow, -⟩ := hends (hreset.within rfl le_rfl hbounds.le)
  rw [← hcfg] at hbounds hnow hports
  refine ⟨k, t, hk, hreach, (congrArg Ports.done hports).trans (ReadResult.ports_done _), hnow.trans_le hbounds.le,
    fun hne => hnow.trans_le (hbounds.le_of_outcome (mt (resErr_eq_timeout_iff hports).mpr hne)),
    fun hto => (hbounds.ge_of_timeout ((resErr_eq_timeout_iff hports).mp hto)).trans hnow.ge⟩

end Sys2Proof.Proofs

namespace Sys2Proof.Machine

open Sys2Proof.Claims Sys2Proof.Safety

/-! ### What the steps of a run depend on (10 R36, 42 R135) -/

/-- `s` without what no step reads: the PulseTimer's registers, which a measurement writes before the Sequencer reads them, the
counter of DELAY, the response, the free values drawn, and the sensor, which only a measurement reads. -/
def State.forget (s : State) : State :=
  { s with ptLevel := .low, ptTimeout := 0#32, ptElapsed := 0#33, ptMeas := ⟨false, 0#32⟩, dlCount := 0#32, resp := .none,
           draws := 0, env := { s.env with sensor := [] } }

@[simp] theorem forget_ldMode (s : State) : s.forget.ldMode = s.ldMode := rfl
@[simp] theorem forget_fdPhase (s : State) : s.forget.fdPhase = s.fdPhase := rfl
@[simp] theorem forget_fdFrame (s : State) : s.forget.fdFrame = s.fdFrame := rfl
@[simp] theorem forget_cfg (s : State) : s.forget.cfg = s.cfg := rfl
@[simp] theorem forget_now (s : State) : s.forget.now = s.now := rfl
@[simp] theorem forget_hostIssuesRead (s : State) : s.forget.hostIssuesRead = s.hostIssuesRead := rfl
@[simp] theorem forget_rstWithin (s t : State) :
    s.forget.env.rstWithin s.forget.now t.forget.now = s.env.rstWithin s.now t.now := rfl

/-- The outcomes are the same up to what no step reads. -/
inductive Alike : Result → Result → Prop
  | next {s t : State} (h : s.forget = t.forget) : Alike (.next s) (.next t)
  | refused (r : Refusal) : Alike (.refused r) (.refused r)

theorem Alike.trans_symm {r q p : Result} (h : Alike r q) (h' : Alike p q) : Alike r p := by
  cases h with
  | next h => cases h' with | next h' => exact .next (h.trans h'.symm)
  | refused r => cases h' with | refused => exact .refused r

theorem Alike.onNext {r q : Result} (h : Alike r q) {f g : State → State}
    (hf : ∀ u v : State, u.forget = v.forget → (f u).forget = (g v).forget) :
    Alike (Machine.onNext f r) (Machine.onNext g q) := by
  cases h with
  | next h => exact .next (hf _ _ h)
  | refused r => exact .refused r

/-- Functions of the state to which it makes no difference what `forget` hides. -/
theorem alike_of_forget {f : State → Result} (hf : ∀ u : State, Alike (f u) (f u.forget)) {s t : State}
    (h : s.forget = t.forget) : Alike (f s) (f t) := by
  have hs := hf s
  rw [h] at hs
  exact hs.trans_symm (hf t)

theorem eq_of_forget {α : Type} {f : State → α} (hf : ∀ u : State, f u.forget = f u) {s t : State}
    (h : s.forget = t.forget) : f s = f t := by
  rw [← hf s, h, hf t]

theorem forget_eq_of_forget {f : State → State} (hf : ∀ u : State, (f u).forget = (f u.forget).forget) {s t : State}
    (h : s.forget = t.forget) : (f s).forget = (f t).forget := by
  rw [hf s, h, ← hf t]

/-! ### Operations and the Sequencer -/

theorem alike_execRead {s t : State} (h : s.forget = t.forget) : Alike (execRead s) (execRead t) := by
  refine alike_of_forget (fun u => ?_) h
  cases hb : u.resBusy
  · rw [execRead_next.mpr (.inl ⟨hb, rfl⟩), (execRead_next (s := u.forget)).mpr (.inl ⟨hb, rfl⟩)]
    exact .next rfl
  · rw [execRead_next.mpr (.inr ⟨hb, rfl⟩), (execRead_next (s := u.forget)).mpr (.inr ⟨hb, rfl⟩)]
    exact .next rfl

theorem alike_execReadLevel {s t : State} (h : s.forget = t.forget) : Alike (execReadLevel s) (execReadLevel t) := by
  refine alike_of_forget (fun u => ?_) h
  by_cases hm : u.ldMode = .input
  · rw [execReadLevel_of_input hm, execReadLevel_of_input (s := u.forget) hm]
    exact .next rfl
  · rw [execReadLevel_of_not_input hm, execReadLevel_of_not_input (s := u.forget) hm]
    exact .refused _

theorem alike_exec {i : Instr} (hi : ∀ l T, i ≠ .measureWhile l T) {s t : State} (h : s.forget = t.forget) :
    Alike (exec i s) (exec i t) := by
  cases i with
  | driveLow => exact alike_of_forget (f := execDriveLow) (fun _ => .next rfl) h
  | releaseHigh => exact alike_of_forget (f := execReleaseHigh) (fun _ => .next rfl) h
  | switchToInput => exact alike_of_forget (f := execSwitchToInput) (fun _ => .next rfl) h
  | readLevel => exact alike_execReadLevel h
  | measureWhile l T => exact absurd rfl (hi l T)
  | delay n => exact alike_of_forget (f := execDelay n) (fun _ => .next rfl) h
  | read => exact alike_execRead h

theorem forget_sequencerAfter {i : Instr} (hi : ∀ l T, i ≠ .measureWhile l T) {s t : State} (h : s.forget = t.forget) :
    (sequencerAfter i s).forget = (sequencerAfter i t).forget := by
  refine forget_eq_of_forget (fun u => ?_) h
  simp only [sequencerAfter, forget_fdPhase]
  cases i with
  | measureWhile l T => exact absurd rfl (hi l T)
  | _ => cases u.fdPhase <;> rfl

/-- The Sequencer reads of a measurement whether it timed out, and its duration if it did not. -/
theorem forget_sequencerAfter_finishMeasurement (l : Level) (T : U32) (m : Nat × Bool) {s t : State}
    (h : s.forget = t.forget) :
    (sequencerAfter (.measureWhile l T) (finishMeasurement l T m s)).forget =
      (sequencerAfter (.measureWhile l T) (finishMeasurement l T m t)).forget := by
  refine forget_eq_of_forget (f := fun u => sequencerAfter _ (finishMeasurement l T m u)) (fun u => ?_) h
  obtain ⟨d, timedOut⟩ := m
  simp only [sequencerAfter, finishMeasurement_fdPhase, forget_fdPhase]
  cases timedOut <;> cases u.fdPhase <;> rfl

/-! ### Steps -/

theorem alike_runOp_measureWhile {l : Level} {T : U32} {s t : State} (h : s.forget = t.forget)
    (hmeas : measured s l T = measured t l T) :
    Alike (onNext (sequencerAfter (.measureWhile l T)) (execMeasureWhile l T s))
      (onNext (sequencerAfter (.measureWhile l T)) (execMeasureWhile l T t)) := by
  have hmode : s.ldMode = t.ldMode := eq_of_forget forget_ldMode h
  unfold execMeasureWhile
  rw [hmeas, hmode]
  split
  · exact .next (forget_sequencerAfter_finishMeasurement l T _ h)
  · exact .refused _

theorem alike_runOp {w : OpWord} {s t : State} (h : s.forget = t.forget)
    (hmeas : ∀ l T, w = encode (.measureWhile l T) → measured s.takeOp l T = measured t.takeOp l T) :
    Alike (runOp w s) (runOp w t) := by
  have htake : s.takeOp.forget = t.takeOp.forget := congrArg State.takeOp h
  cases hdec : decode w with
  | error r =>
    rw [runOp_of_decode_error hdec, runOp_of_decode_error hdec]
    exact .refused _
  | ok i =>
    rw [runOp_of_decode hdec, runOp_of_decode hdec]
    by_cases hi : ∃ l T, i = .measureWhile l T
    · obtain ⟨l, T, rfl⟩ := hi
      exact alike_runOp_measureWhile htake (hmeas l T (decode_eq_ok.mp hdec))
    · replace hi : ∀ l T, i ≠ .measureWhile l T := fun l T heq => hi ⟨l, T, heq⟩
      exact (alike_exec hi htake).onNext fun _ _ => forget_sequencerAfter hi

theorem forget_validate {s t : State} (h : s.forget = t.forget) : (validate s).forget = (validate t).forget := by
  refine forget_eq_of_forget (fun u => ?_) h
  by_cases hsum : u.fdFrame.checksumOk = true
  · rw [validate_of_checksumOk hsum, validate_of_checksumOk (s := u.forget) hsum]
    rfl
  · rw [validate_of_not_checksumOk hsum, validate_of_not_checksumOk (s := u.forget) hsum]
    rfl

theorem alike_convert {s t : State} (h : s.forget = t.forget) : Alike (convert s) (convert t) := by
  refine alike_of_forget (fun u => ?_) h
  simp only [convert, forget_cfg, forget_fdFrame]
  cases u.cfg.family with
  | tenths16 => exact .next rfl
  | other id => exact .refused _

theorem alike_runPhase {s t : State} (h : s.forget = t.forget) : Alike (runPhase s) (runPhase t) := by
  have hphase : s.fdPhase = t.fdPhase := eq_of_forget forget_fdPhase h
  have henter : ∀ p, Alike (.next (s.enter p)) (.next (t.enter p)) := fun p =>
    .next (forget_eq_of_forget (f := State.enter p) (fun _ => rfl) h)
  unfold runPhase
  rw [← hphase]
  cases s.fdPhase
  case idle =>
    rw [← eq_of_forget forget_hostIssuesRead h]
    cases s.hostIssuesRead
    · exact .next (forget_eq_of_forget (f := State.idleTick) (fun _ => rfl) h)
    · exact alike_execRead h
  case validate => exact .next (forget_validate h)
  case convert => exact alike_convert h
  all_goals exact henter _

theorem forget_orReset {s t u v : State} (h : s.forget = t.forget) (huv : u.forget = v.forget) :
    (s.orReset u).forget = (t.orReset v).forget := by
  have hforget : ∀ s u : State, (s.orReset u).forget = (s.forget.orReset u.forget).forget := fun s u => by
    simp only [State.orReset, forget_rstWithin]
    cases s.env.rstWithin s.now u.now <;> rfl
  rw [hforget s, h, huv, ← hforget t]

/-- A step depends on the state up to `forget`, and on the line during the measurement it makes. -/
theorem alike_step {s t : State} (h : s.forget = t.forget)
    (hmeas : ∀ l T, s.op = some (encode (.measureWhile l T)) → measured s.takeOp l T = measured t.takeOp l T) :
    Alike (step s) (step t) := by
  have hop : s.op = t.op := eq_of_forget (f := State.op) (fun _ => rfl) h
  have hrst : s.env.rstAt s.now = t.env.rstAt t.now :=
    eq_of_forget (f := fun u => u.env.rstAt u.now) (fun _ => rfl) h
  unfold step
  rw [← hrst, ← hop]
  split
  · exact .next (forget_eq_of_forget (f := State.heldInReset) (fun _ => rfl) h)
  · refine Alike.onNext ?_ fun u v => forget_orReset h
    cases hw : s.op with
    | none => exact alike_runPhase h
    | some w => exact alike_runOp h fun l T hi => hmeas l T (hi ▸ hw)

end Sys2Proof.Machine

namespace Sys2Proof.Safety

open Sys2Proof.Machine Sys2Proof.Claims Sys2Proof.Config

/-! ### Runs in step with each other (42 R135) -/

theorem sameView_of_alike {r q : Result} (h : Alike r q) : SameView r q := by
  cases h with
  | next h => exact ⟨eq_of_forget (f := State.ports) (fun _ => rfl) h, eq_of_forget forget_now h⟩
  | refused r => exact (rfl : r = r)

theorem alike_runSteps_succ {s t : State} {k : Nat} (h : Alike (step s) (step t))
    (hrest : ∀ u v, step s = .next u → step t = .next v → u.forget = v.forget → Alike (runSteps k u) (runSteps k v)) :
    Alike (runSteps (k + 1) s) (runSteps (k + 1) t) := by
  rw [runSteps, runSteps]
  generalize hs : step s = r at h ⊢
  generalize ht : step t = q at h ⊢
  cases h with
  | next h => exact hrest _ _ hs ht h
  | refused r => exact .refused r

/-- Two sensors that agree from tick `first` on make no difference to a run that measures nothing before it. -/
theorem alike_runSteps {P : State → Prop} {first : Nat} (hstep : ∀ {s t}, P s → step s = .next t → P t)
    (hfirst : ∀ {s l T}, P s → s.op = some (encode (.measureWhile l T)) → first ≤ s.now) {k : Nat} {s t : State}
    (hs : P s) (h : s.forget = t.forget) (hsensor : ∀ i, first ≤ i → s.env.sensorLow i = t.env.sensorLow i) :
    Alike (runSteps k s) (runSteps k t) := by
  induction k generalizing s t with
  | zero => exact .next h
  | succ k ih =>
    refine alike_runSteps_succ (alike_step h fun l T hop => ?_) fun u v hu hv huv => ih (hstep hs hu) huv ?_
    · have hnow := hfirst hs hop
      have hmeas : measured s l T = measured t l T := measured_congr (eq_of_forget forget_now h) fun i hi =>
        lineAt_congr i (eq_of_forget forget_ldMode h) (hsensor i (hnow.trans hi))
      exact hmeas
    · rwa [(step_next_world hu).2.1, (step_next_world hv).2.1]

/-! ### Nothing is measured before the tick the read listens at (42 R121) -/

/-- A measurement stands on the operation interface of a phase that listens only. -/
theorem Invariant.listens_of_measureWhile {s : State} (h : Invariant s) {l : Level} {T : U32}
    (hop : s.op = some (encode (.measureWhile l T))) : listens s.fdPhase = true := by
  have hfit := h.op_fits
  cases hp : s.fdPhase
  case idle => simp [((opFits_idle hp).mp hfit).1] at hop
  case requestPulseLow => simpa [hop, encode_inj] using (opFits_requestPulseLow hp).mp hfit
  case requestPulseRelease => simpa [hop, encode_inj] using (opFits_requestPulseRelease hp).mp hfit
  all_goals rfl

/-- A state of a run with the parameters `c` from tick `t0` on, whatever reads were begun since: where the request pulse is
released it was held for `T_START_US`, and where it is given up the time of the whole pulse has passed. -/
structure RunsFrom (c : Params) (t0 : Nat) (s : State) : Prop where
  inv : Invariant s
  cfg : s.cfg = c
  start : t0 ≤ s.now
  released : s.fdPhase = .requestPulseRelease → t0 + c.tStartUs.toNat ≤ s.now
  givenUp : s.op = some (encode .switchToInput) ∨ listens s.fdPhase = true → listenTick c t0 ≤ s.now

section RunsFrom

variable {c : Params} {t0 : Nat} {s t : State}

theorem RunsFrom.of_idle (h : Invariant s) (hcfg : s.cfg = c) (hstart : t0 ≤ s.now) (hp : s.fdPhase = .idle) :
    RunsFrom c t0 s := by
  have hop := ((opFits_idle hp).mp h.op_fits).1
  exact ⟨h, hcfg, hstart, by simp [hp], by simp [hp, hop, listens]⟩

theorem RunsFrom.of_requestPulseLow (h : Invariant s) (hcfg : s.cfg = c) (hstart : t0 ≤ s.now)
    (hp : s.fdPhase = .requestPulseLow) : RunsFrom c t0 s := by
  have hop := (opFits_requestPulseLow hp).mp h.op_fits
  refine ⟨h, hcfg, hstart, by simp [hp], ?_⟩
  rintro (hswitch | hlistens)
  · simp [hswitch, encode_inj] at hop
  · simp [hp, listens] at hlistens

theorem RunsFrom.of_releaseHigh (h : Invariant s) (hcfg : s.cfg = c) (hreleased : t0 + c.tStartUs.toNat ≤ s.now)
    (hp : s.fdPhase = .requestPulseRelease) (hop : s.op ≠ some (encode .switchToInput)) : RunsFrom c t0 s :=
  ⟨h, hcfg, (Nat.le_add_right _ _).trans hreleased, fun _ => hreleased, by simp [hp, hop, listens]⟩

/-- Once the time of the whole pulse has passed nothing else is to be shown. -/
theorem RunsFrom.of_listenTick (h : Invariant s) (hcfg : s.cfg = c) (hlisten : listenTick c t0 ≤ s.now) :
    RunsFrom c t0 s :=
  ⟨h, hcfg, (le_listenTick _ _).trans hlisten, fun _ => (startEnd_le_listenTick _ _).trans hlisten, fun _ => hlisten⟩

section Run

variable (h : RunsFrom c t0 s) (ht : Invariant t) (hrun : Runs s t)
include h ht hrun

theorem RunsFrom.runs_requestPulseLow (hp : s.fdPhase = .requestPulseLow) : RunsFrom c t0 t := by
  obtain ⟨hinv, rfl, hstart, -, -⟩ := h
  obtain ⟨hword, -⟩ | ⟨hword, -⟩ := (opFits_requestPulseLow hp).mp hinv.op_fits
  · cases (hrun.op hword).symm.trans (runOp_driveLow hp)
    exact .of_requestPulseLow ht rfl hstart hp
  · cases (hrun.op hword).symm.trans (runOp_delay_requestPulseLow hp _)
    exact .of_releaseHigh ht rfl (Nat.add_le_add_right hstart _) rfl (by simp [encode_inj])

theorem RunsFrom.runs_requestPulseRelease (hp : s.fdPhase = .requestPulseRelease) : RunsFrom c t0 t := by
  obtain ⟨hinv, rfl, -, hreleased, hgivenUp⟩ := h
  obtain ⟨hword, -⟩ | ⟨hword, -⟩ | ⟨hword, -⟩ := (opFits_requestPulseRelease hp).mp hinv.op_fits
  · cases (hrun.op hword).symm.trans (runOp_releaseHigh hp)
    exact .of_releaseHigh ht rfl (hreleased hp) hp (by simp [encode_inj])
  · cases (hrun.op hword).symm.trans (runOp_delay_requestPulseRelease hp _)
    exact .of_listenTick ht rfl (Nat.add_le_add_right (hreleased hp) _)
  · cases (hrun.op hword).symm.trans (runOp_switchToInput hp)
    exact .of_listenTick ht rfl (hgivenUp (.inl hword))

end Run

theorem RunsFrom.step (h : RunsFrom c t0 s) (hstep : step s = .next t) : RunsFrom c t0 t := by
  have ht := h.inv.step hstep
  obtain ⟨hcfg, -, hnow⟩ := step_next_world hstep
  have hcfg := hcfg.trans h.cfg
  have hstart := h.start.trans hnow
  obtain ⟨-, hreset⟩ | ⟨-, hrun⟩ := step_reset_cases hstep
  · exact .of_idle ht hcfg hstart (by rw [hreset]; rfl)
  cases hp : s.fdPhase
  case idle =>
    have hrow := transitionRow_of_runs h.inv.op_fits hrun
    simp only [TransitionRow, hp] at hrow
    obtain ⟨-, hphase, -⟩ | ⟨-, hphase, -⟩ := hrow
    · exact .of_requestPulseLow ht hcfg hstart hphase
    · exact .of_idle ht hcfg hstart hphase
  case requestPulseLow => exact h.runs_requestPulseLow ht hrun hp
  case requestPulseRelease => exact h.runs_requestPulseRelease ht hrun hp
  all_goals exact .of_listenTick ht hcfg ((h.givenUp (.inr (by rw [hp]; rfl))).trans hnow)

theorem RunsFrom.listenTick_le_of_measureWhile (h : RunsFrom c t0 s) {l : Level} {T : U32}
    (hop : s.op = some (encode (.measureWhile l T))) : listenTick c t0 ≤ s.now :=
  h.givenUp (.inr (h.inv.listens_of_measureWhile hop))

end RunsFrom

/-! ### Two reads that begin at the same tick -/

/-- DRIVE_LOW writes over the mode a read began in, so the read goes on as from the reset state. -/
theorem alike_step_acceptRead (s : State) : Alike (step s.acceptRead) (step (s.resetAt s.now).acceptRead) := by
  cases hrst : s.env.rstAt s.now
  · rw [step_acceptRead_of_rstAt hrst, step_acceptRead_of_rstAt (s := s.resetAt s.now) hrst]
    exact .next rfl
  · have hheld : ∀ u : State, u.env.rstAt u.now = true → step u = .next u.heldInReset :=
      fun u hu => step_next.mpr (.inl ⟨hu, rfl⟩)
    rw [hheld s.acceptRead hrst, hheld (s.resetAt s.now).acceptRead hrst]
    exact .next rfl

theorem alike_runSteps_acceptRead (s : State) {k : Nat} (hk : 1 ≤ k) :
    Alike (runSteps k s.acceptRead) (runSteps k (s.resetAt s.now).acceptRead) := by
  obtain ⟨j, rfl⟩ := Nat.exists_eq_add_of_le' hk
  refine alike_runSteps_succ (alike_step_acceptRead s) fun u v hu hv huv => ?_
  refine alike_runSteps (P := fun _ => True) (first := 0) (fun _ _ => trivial) (fun _ _ => Nat.zero_le _) trivial huv
    fun i _ => ?_
  rw [(step_next_world hu).2.1, (step_next_world hv).2.1]
  rfl

end Sys2Proof.Safety

namespace Sys2Proof.Proofs

open Sys2Proof.Machine Sys2Proof.Safety Sys2Proof.Claims Sys2Proof.Config

/-- Settles O45: each run looks like the one from the reset state at its tick, and those two measure nothing before the sensors
agree. -/
theorem readsAreIndependentOfThePast : Obligations.ReadsAreIndependentOfThePast := by
  intro s₁ s₂ _ _ hcfg hnow hcmd hrst hsensor k hk
  have hforget : (s₁.resetAt s₁.now).acceptRead.forget = (s₂.resetAt s₂.now).acceptRead.forget := by
    simp [State.forget, State.acceptRead, State.enter, State.resetAt, hcfg, hnow, hcmd, hrst]
  have hstart : RunsFrom s₂.cfg s₂.now (s₂.resetAt s₂.now).acceptRead :=
    .of_requestPulseLow ((invariant_resetAt s₂ _).acceptRead rfl) rfl le_rfl rfl
  rw [hcfg, hnow] at hsensor
  have halike : Alike (runSteps k (s₂.resetAt s₂.now).acceptRead) (runSteps k (s₁.resetAt s₁.now).acceptRead) :=
    alike_runSteps RunsFrom.step (fun h => h.listenTick_le_of_measureWhile) hstart hforget.symm fun i hi => (hsensor i hi).symm
  exact sameView_of_alike
    (((alike_runSteps_acceptRead s₁ hk).trans_symm halike).trans_symm (alike_runSteps_acceptRead s₂ hk))

end Sys2Proof.Proofs

/-! PROOFS. The family of 60_exceptions: a busy block does not look at `cmd` (O18), the tick a read ends in (O20), the block
never stops (O37), and the reads of a line that stays high (O46) or low (O47). -/

namespace Sys2Proof.Machine

/-! ### What the host presents, over an operation and over the Sequencer (60 R157) -/

/-- `s` with other words presented on `cmd`. -/
def State.withCmd (c : List (Nat × OpWord)) (s : State) : State := { s with env := { s.env with cmd := c } }

@[simp] theorem withCmd_fdPhase (c : List (Nat × OpWord)) (s : State) : (s.withCmd c).fdPhase = s.fdPhase := rfl
@[simp] theorem withCmd_cfg (c : List (Nat × OpWord)) (s : State) : (s.withCmd c).cfg = s.cfg := rfl
@[simp] theorem withCmd_rstWithin (c : List (Nat × OpWord)) (s t : State) :
    (s.withCmd c).env.rstWithin (s.withCmd c).now (t.withCmd c).now = s.env.rstWithin s.now t.now := rfl

theorem onNext_onNext (f g : State → State) (r : Result) : onNext f (onNext g r) = onNext (f ∘ g) r := by
  cases r <;> rfl

section WithCmd

variable (c : List (Nat × OpWord)) (s : State)

theorem exec_withCmd (i : Instr) : exec i (s.withCmd c) = onNext (State.withCmd c) (exec i s) := by
  cases i with
  | driveLow | releaseHigh | switchToInput | delay => rfl
  | readLevel =>
    rw [exec, exec, execReadLevel, execReadLevel, apply_ite (onNext _)]
    rfl
  | measureWhile l T =>
    rw [exec, exec, execMeasureWhile, execMeasureWhile, apply_ite (onNext _)]
    rfl
  | read =>
    rw [exec, exec, execRead, execRead, apply_ite (onNext _)]
    rfl

theorem afterMeasuring_withCmd (i : Instr) (t : State) :
    afterMeasuring i (s.withCmd c) (t.withCmd c) = (afterMeasuring i s t).withCmd c := by
  cases i with
  | measureWhile l T =>
    rw [afterMeasuring, afterMeasuring, unlessTimedOut, unlessTimedOut, apply_ite (State.withCmd c)]
    rfl
  | _ => rfl

theorem sequencerAfter_withCmd (i : Instr) : sequencerAfter i (s.withCmd c) = (sequencerAfter i s).withCmd c := by
  simp only [sequencerAfter, withCmd_fdPhase]
  cases s.fdPhase
  case idle | validate | convert => rfl
  case requestPulseLow | requestPulseRelease => cases i <;> rfl
  case awaitResponseLow => exact afterMeasuring_withCmd c s i (s.enter .awaitResponseHigh)
  case awaitResponseHigh => exact afterMeasuring_withCmd c s i ({ s with fdBitidx := 0#6 }.enter .bitLoopLow)
  case bitLoopLow => exact afterMeasuring_withCmd c s i (s.enter .bitLoopHigh)
  case bitLoopHigh => exact afterMeasuring_withCmd c s i (appendBit s)

theorem runOp_withCmd (w : OpWord) : runOp w (s.withCmd c) = onNext (State.withCmd c) (runOp w s) := by
  cases hdec : decode w with
  | error r =>
    rw [runOp_of_decode_error hdec, runOp_of_decode_error hdec]
    rfl
  | ok i =>
    have hexec : exec i (s.withCmd c).takeOp = onNext (State.withCmd c) (exec i s.takeOp) := exec_withCmd c s.takeOp i
    rw [runOp_of_decode hdec, runOp_of_decode hdec, hexec, onNext_onNext, onNext_onNext]
    exact congrArg (onNext · _) (funext fun u => sequencerAfter_withCmd c u i)

theorem validate_withCmd : validate (s.withCmd c) = (validate s).withCmd c := by
  rw [validate, validate, apply_ite (State.withCmd c)]
  rfl

theorem convert_withCmd : convert (s.withCmd c) = onNext (State.withCmd c) (convert s) := by
  simp only [convert, withCmd_cfg]
  cases s.cfg.family <;> rfl

/-- Only Idle samples the port. -/
theorem runPhase_withCmd (hp : s.fdPhase ≠ .idle) : runPhase (s.withCmd c) = onNext (State.withCmd c) (runPhase s) := by
  simp only [runPhase, withCmd_fdPhase]
  cases h : s.fdPhase
  case idle => exact absurd h hp
  case validate => exact congrArg Host.Outcome.next (validate_withCmd c s)
  case convert => exact convert_withCmd c s
  all_goals rfl

theorem orReset_withCmd (t : State) : (s.withCmd c).orReset (t.withCmd c) = (s.orReset t).withCmd c := by
  simp only [State.orReset, withCmd_rstWithin]
  cases s.env.rstWithin s.now t.now <;> rfl

/-- 60 R157: in every phase but Idle a step does not look at what the host presents. -/
theorem step_withCmd (hp : s.fdPhase ≠ .idle) : step (s.withCmd c) = onNext (State.withCmd c) (step s) := by
  have horReset : (s.withCmd c).orReset ∘ State.withCmd c = State.withCmd c ∘ s.orReset :=
    funext (orReset_withCmd c s)
  cases hrst : s.env.rstAt s.now with
  | true =>
    rw [step_next.mpr (.inl ⟨hrst, rfl⟩), (step_next (s := s.withCmd c)).mpr (.inl ⟨hrst, rfl⟩)]
    rfl
  | false =>
    cases hop : s.op with
    | none =>
      rw [step_of_no_op hrst hop, step_of_no_op (s := s.withCmd c) hrst hop, runPhase_withCmd c s hp, onNext_onNext,
        onNext_onNext, horReset]
    | some w =>
      rw [step_of_op hrst hop, step_of_op (s := s.withCmd c) hrst hop, runOp_withCmd, onNext_onNext, onNext_onNext,
        horReset]

end WithCmd

/-! ### What completes (40 R104, 41 R115) -/

/-- Only the two operations that sample the line have a precondition. -/
theorem exec_completes {i : Instr} {s : State} (hread : i = .readLevel → s.ldMode = .input)
    (hmeas : ∀ l T, i = .measureWhile l T → s.ldMode = .input) : ∃ t, exec i s = .next t := by
  cases i with
  | driveLow => exact ⟨_, execDriveLow_next.mpr rfl⟩
  | releaseHigh => exact ⟨_, execReleaseHigh_next.mpr rfl⟩
  | switchToInput => exact ⟨_, execSwitchToInput_next.mpr rfl⟩
  | readLevel => exact ⟨_, execReadLevel_of_input (hread rfl)⟩
  | measureWhile l T => exact ⟨_, execMeasureWhile_next.mpr ⟨hmeas l T rfl, rfl⟩⟩
  | delay n => exact ⟨_, execDelay_next.mpr rfl⟩
  | read =>
    cases hb : s.resBusy
    · exact ⟨_, execRead_next.mpr (.inl ⟨hb, rfl⟩)⟩
    · exact ⟨_, execRead_next.mpr (.inr ⟨hb, rfl⟩)⟩

/-- Of what an empty operation interface lets happen only Convert can refuse (30 R87). -/
theorem runPhase_completes {s : State} (hfam : s.fdPhase = .convert → s.cfg.family = .tenths16) :
    ∃ t, runPhase s = .next t := by
  cases hp : s.fdPhase
  case idle =>
    cases hread : s.hostIssuesRead
    · exact ⟨_, runPhase_next.mpr (.inr (.inl ⟨hp, hread, rfl⟩))⟩
    · obtain ⟨t, ht⟩ := exec_completes (i := .read) (s := s) nofun nofun
      exact ⟨t, runPhase_next.mpr (.inl ⟨hp, hread, ht⟩)⟩
  case validate => exact ⟨_, runPhase_next.mpr (.inr (.inr (.inl ⟨hp, rfl⟩)))⟩
  case convert => exact ⟨_, runPhase_next.mpr (.inr (.inr (.inr (.inl ⟨hp, hfam hp, rfl⟩))))⟩
  all_goals exact ⟨s.enter s.fdPhase, runPhase_next.mpr (.inr (.inr (.inr (.inr (by simp [hp])))))⟩

/-! ### What leaves the tick's sample of `cmd` as it is (log 7) -/

theorem exec_polled {i : Instr} {s t : State} (h : exec i s = .next t) (hs : s.polled = true) : t.polled = true := by
  cases i with
  | driveLow => rw [execDriveLow_next.mp h, hs]
  | releaseHigh => rw [execReleaseHigh_next.mp h, hs]
  | switchToInput => rw [execSwitchToInput_next.mp h, hs]
  | readLevel => rw [(execReadLevel_next.mp h).2, hs]
  | measureWhile l T => rw [(execMeasureWhile_next.mp h).2, finishMeasurement_polled, hs]
  | delay n => rw [execDelay_next.mp h, hs]
  | read => obtain ⟨-, rfl⟩ | ⟨-, rfl⟩ := execRead_next.mp h <;> simp [hs]

theorem unlessTimedOut_polled {s t : State} (ht : t.polled = s.polled) : (unlessTimedOut s t).polled = s.polled := by
  obtain ⟨-, heq⟩ | ⟨-, heq⟩ := unlessTimedOut_cases s t
  · rw [heq, abort_polled]
  · rw [heq, ht]

theorem afterMeasuring_polled (i : Instr) {s t : State} (ht : t.polled = s.polled) :
    (afterMeasuring i s t).polled = s.polled := by
  cases i with
  | measureWhile l T => exact unlessTimedOut_polled ht
  | _ => rfl

theorem sequencerAfter_polled (i : Instr) (s : State) : (sequencerAfter i s).polled = s.polled := by
  unfold sequencerAfter
  cases s.fdPhase
  case idle | validate | convert => rfl
  case requestPulseLow | requestPulseRelease => cases i <;> rfl
  all_goals exact afterMeasuring_polled i rfl

theorem validate_polled (s : State) : (validate s).polled = s.polled := by
  unfold validate
  split <;> rfl

end Sys2Proof.Machine

namespace Sys2Proof.Safety

open Sys2Proof.Machine Sys2Proof.Claims

/-! ### A block that never stops (60 R150, R158) -/

/-- The words of a read are words of operations whose preconditions hold (10 R37(d)). -/
theorem Invariant.runOp_completes {s : State} (h : Invariant s) {w : OpWord} (hop : s.op = some w) :
    ∃ t, Machine.runOp w s = .next t := by
  obtain ⟨i, rfl⟩ := h.op_encode hop
  have hread : i ≠ .readLevel := by rintro rfl; exact h.op_ne_readLevel hop
  obtain ⟨u, hu⟩ := exec_completes (s := s.takeOp) (fun hi => absurd hi hread)
    (by rintro l T rfl; exact h.input_of_measureWhile hop)
  exact ⟨_, runOp_encode_next.mpr ⟨u, hu, rfl⟩⟩

theorem Invariant.runs_completes {s : State} (h : Invariant s) (hfam : s.fdPhase = .convert → s.cfg.family = .tenths16) :
    ∃ t, Runs s t := by
  cases hop : s.op with
  | none =>
    obtain ⟨t, ht⟩ := runPhase_completes hfam
    exact ⟨t, .inr ⟨hop, ht⟩⟩
  | some w =>
    obtain ⟨t, ht⟩ := h.runOp_completes hop
    exact ⟨t, .inl ⟨w, hop, ht⟩⟩

/-- Reset has a next state too, so it is enough that the operation or the computation has one. -/
theorem Runs.step_completes {s u : State} (h : Runs s u) : ∃ t, step s = .next t := by
  cases hrst : s.env.rstAt s.now with
  | true => exact ⟨_, step_next.mpr (.inl ⟨hrst, rfl⟩)⟩
  | false => exact ⟨_, step_next.mpr (.inr ⟨hrst, u, rfl, h⟩)⟩

/-! ### The tick a read ends in (60 R154(e)) -/

theorem Invariant.phase_ne_idle {s : State} (h : Invariant s) (hb : s.resBusy = true) : s.fdPhase ≠ .idle := by
  simp [h.idle_busy, hb]

/-- The port has been sampled in the tick at which a step of a busy block ends, unless the step was a reset. -/
theorem Runs.polled {s t : State} (h : Runs s t) (hp : s.fdPhase ≠ .idle) (hs : s.polled = true) : t.polled = true := by
  obtain ⟨w, -, hrun⟩ | ⟨-, hrun⟩ := h
  · obtain ⟨i, u, -, hexec, rfl⟩ := runOp_next.mp hrun
    rw [sequencerAfter_polled]
    exact exec_polled hexec hs
  · obtain ⟨hidle, -⟩ | ⟨hidle, -⟩ | ⟨-, rfl⟩ | ⟨-, -, rfl⟩ | ⟨-, -, -, rfl⟩ := runPhase_next.mp hrun
    · exact absurd hidle hp
    · exact absurd hidle hp
    · rw [validate_polled, hs]
    · exact hs
    · exact hs

/-- Acceptance takes no time, so only a reset at its own tick could touch it. -/
theorem step_idle_accepts_of_rstAt {s : State} (hp : s.fdPhase = .idle) (hop : s.op = none)
    (hrst : s.env.rstAt s.now = false) (hread : s.hostIssuesRead = true) : step s = exec .read s := by
  obtain ⟨-, hb, -⟩ := hostIssuesRead_iff.mp hread
  have hexec : exec .read s = .next s.acceptRead := execRead_next.mpr (.inl ⟨hb, rfl⟩)
  rw [hexec]
  exact step_of_runPhase hop hrst (runPhase_next.mpr (.inl ⟨hp, hread, hexec⟩)) rfl

/-! ### Reads that time out (60 R151) -/

/-- The five steps of the request pulse, the block busy before each of them. -/
theorem reachesIdle_acceptRead {s t : State} {k : Nat} (hreset : NoReset s s.now (listenTick s.cfg s.now))
    (h : ReachesIdle s.listening k t) : ReachesIdle s.acceptRead (k + 5) t :=
  reachesIdle_succ rfl (step_acceptRead hreset) <| reachesIdle_succ rfl (step_driven hreset) <|
    reachesIdle_succ rfl (step_startHeld hreset) <| reachesIdle_succ rfl (step_released hreset) <|
      reachesIdle_succ rfl (step_releaseHeld hreset) h

/-- A measurement on a line that does not change ends the read in one step, the bits decoded so far kept. -/
theorem ListensAt.reachesIdle_of_holdsPast {s : State} {p : Phase} {l : Level} {T : U32} {next : State → State}
    (h : ListensAt p s) (hp : Measures s.cfg p l T next) (hheld : HoldsPast (freeLine s.env) l s.now T.toNat)
    (hreset : NoReset s s.now (s.now + T.toNat + 1)) :
    ∃ t, ReachesIdle s 1 t ∧ t.ports = ReadResult.timeout.ports ∧ t.now = s.now + T.toNat + 1 ∧
      t.fdBitidx = s.fdBitidx ∧ t.fdFrame = s.fdFrame := by
  have hstep := hp.step_of_holdsPast h.phase (h.op_measureWhile hp) h.mode hheld hreset
  refine ⟨_, reachesIdle_succ h.busy hstep (reachesIdle_zero rfl rfl), ?_, rfl, rfl, rfl⟩
  exact congrArg (fun q : Ports => { q with busy := false, done := true, err := 0b01#2 }) h.ports

end Sys2Proof.Safety

namespace Sys2Proof.Proofs

open Sys2Proof.Machine Sys2Proof.Safety Sys2Proof.Claims

/-- Settles O18: only Idle samples `cmd`, and a busy block is in another phase. -/
theorem hostIsIgnoredWhileBusy : Obligations.HostIsIgnoredWhileBusy :=
  ⟨fun _ hb => execRead_next.mpr (.inr ⟨hb, rfl⟩), fun _ c h hb => step_withCmd c _ (h.phase_ne_idle hb)⟩

/-- Settles O20: the port of the end tick counts as sampled, and the idle tick makes the next one unsampled. -/
theorem readInTheEndTickIsIgnored : Obligations.ReadInTheEndTickIsIgnored := by
  intro s t h hb hstep hend hreset
  have ht := h.step hstep
  have hp := ht.idle_busy.mpr hend
  obtain ⟨hop, -⟩ := (opFits_idle hp).mp ht.op_fits
  obtain ⟨-, henv, hnow⟩ := step_next_world hstep
  have hpolled : t.polled = true := by
    obtain ⟨hno, -⟩ | ⟨-, hrun⟩ := step_reset_cases hstep
    · exact absurd (hreset.within rfl le_rfl (Nat.le_succ _)) hno
    · exact hrun.polled (h.phase_ne_idle hb) (h.busy_polled hb)
  have hignored : t.hostIssuesRead = false :=
    eq_false_of_ne_true fun hread => by simpa [hpolled] using hostIssuesRead_iff.mp hread
  have hreset' : NoReset t t.now (t.now + 1) := hreset.within henv hnow le_rfl
  refine ⟨t.idleTick, step_idle_ignores hp hop hreset' hignored, rfl, fun hcmd => ?_⟩
  have hrst : NoReset t.idleTick t.idleTick.now (t.now + 1) := hreset'.within rfl (Nat.le_succ _) le_rfl
  exact step_idle_accepts_of_rstAt hp hop (hrst.rstAt_now le_rfl) (hostIssuesRead_iff_encode.mpr ⟨rfl, hend, hcmd⟩)

/-- Settles O37: an operation the Sequencer issues has its precondition, and Convert a specified family. -/
theorem theBlockNeverStops : Obligations.TheBlockNeverStops := by
  intro s h hfam
  obtain ⟨u, hrun⟩ := h.runs_completes fun hp => hfam.resolve_right fun hne => hne hp
  exact hrun.step_completes

/-- Settles O46: the acknowledgement low lasts 0 ticks, and its high times out. -/
theorem noSensorEndsInTimeout : Obligations.NoSensorEndsInTimeout := by
  intro s _ hheld hreset
  have hpulse : NoReset s s.now (listenTick s.cfg s.now) := hreset.within rfl le_rfl (by omega)
  have hlow : HoldsFor (freeLine s.env) .low (listenTick s.cfg s.now) 0 :=
    ⟨nofun, by rw [hheld 0 (Nat.zero_le _)]; nofun⟩
  have hstep := Measures.ackLow.step_of_holdsFor (s := s.listening) rfl rfl rfl (Nat.zero_le _) hlow
    (hpulse.within rfl (le_listenTick _ _) le_rfl)
  obtain ⟨t, hreach, hend⟩ := ListensAt.reachesIdle_of_holdsPast
    ((listensAt_listening s).enter .awaitResponseHigh .low s.cfg.toAckLowUs 0 ⟨false, BitVec.ofNat 32 0⟩ 0#6 Frame.zero)
    .ackHigh hheld (hreset.within rfl (le_listenTick _ _) le_rfl)
  exact ⟨t, reachesIdle_acceptRead hpulse (reachesIdle_succ rfl hstep hreach), hend⟩

/-- Settles O47: the first measurement times out. -/
theorem stuckLowLineEndsInTimeout : Obligations.StuckLowLineEndsInTimeout := by
  intro s _ hheld hreset
  have hpulse : NoReset s s.now (listenTick s.cfg s.now) := hreset.within rfl le_rfl (by omega)
  obtain ⟨t, hreach, hend⟩ := (listensAt_listening s).reachesIdle_of_holdsPast .ackLow hheld
    (hreset.within rfl (le_listenTick _ _) le_rfl)
  exact ⟨t, reachesIdle_acceptRead hpulse hreach, hend⟩

end Sys2Proof.Proofs

/-! PROOFS. The family of 70_reset_and_hazards: reset wins over the operation in progress (O35), and a sensor that answers late
(O48). -/

namespace Sys2Proof.Machine

/-! ### The resets to come, over an operation and over the Sequencer (70 R180) -/

/-- `s` with other ticks at which `rst = 1`. -/
def State.withRst (r : List Nat) (s : State) : State := { s with env := { s.env with rst := r } }

@[simp] theorem withRst_fdPhase (r : List Nat) (s : State) : (s.withRst r).fdPhase = s.fdPhase := rfl

section WithRst

variable (r : List Nat)

theorem exec_withRst {i : Instr} {s t : State} (h : exec i s = .next t) : exec i (s.withRst r) = .next (t.withRst r) := by
  cases i with
  | driveLow | releaseHigh | switchToInput | delay =>
    cases h
    rfl
  | readLevel =>
    obtain ⟨hm, rfl⟩ := execReadLevel_next.mp h
    exact execReadLevel_next.mpr ⟨hm, rfl⟩
  | measureWhile l T =>
    obtain ⟨hm, rfl⟩ := execMeasureWhile_next.mp h
    exact execMeasureWhile_next.mpr ⟨hm, rfl⟩
  | read =>
    obtain ⟨hb, rfl⟩ | ⟨hb, rfl⟩ := execRead_next.mp h
    · exact execRead_next.mpr (.inl ⟨hb, rfl⟩)
    · exact execRead_next.mpr (.inr ⟨hb, rfl⟩)

theorem sequencerAfter_withRst (i : Instr) (s : State) :
    sequencerAfter i (s.withRst r) = (sequencerAfter i s).withRst r := by
  simp only [sequencerAfter, withRst_fdPhase]
  cases s.fdPhase
  case idle | validate | convert => rfl
  case requestPulseLow | requestPulseRelease => cases i <;> rfl
  all_goals
    cases i with
    | measureWhile l T =>
      simp only [afterMeasuring, unlessTimedOut, apply_ite (State.withRst r)]
      rfl
    | _ => rfl

theorem validate_withRst (s : State) : validate (s.withRst r) = (validate s).withRst r := by
  rw [validate, validate, apply_ite (State.withRst r)]
  rfl

end WithRst

/-- A step that would pass a tick with `rst = 1` ends at the first such tick. -/
theorem orReset_of_first {s t : State} {r : Nat} (hmem : r ∈ s.env.rst) (hafter : s.now < r) (hwithin : r ≤ t.now)
    (hfirst : ∀ r' ∈ s.env.rst, s.now ≤ r' → r ≤ r') : s.orReset t = s.resetAt r := by
  obtain ⟨-, hnone⟩ | ⟨r', hmem', hafter', -, heq, hfirst'⟩ := orReset_cases s t
  · exact absurd hwithin (hnone r hmem hafter).not_ge
  · rw [heq, le_antisymm (hfirst' r hmem hafter) (hfirst r' hmem' hafter'.le)]

end Sys2Proof.Machine

namespace Sys2Proof.Safety

open Sys2Proof.Machine Sys2Proof.Claims

/-! ### A step with and without resets (60 R154(d)) -/

/-- What a step does before reset is taken into account does not depend on the resets to come. -/
theorem Runs.withRst {s t : State} (h : Runs s t) (r : List Nat) : Runs (s.withRst r) (t.withRst r) := by
  obtain ⟨w, hop, hrun⟩ | ⟨hop, hrun⟩ := h
  · obtain ⟨i, u, hdec, hexec, rfl⟩ := runOp_next.mp hrun
    exact .inl ⟨w, hop, runOp_next.mpr ⟨i, _, hdec, exec_withRst r hexec, (sequencerAfter_withRst r i u).symm⟩⟩
  · refine .inr ⟨hop, runPhase_next.mpr ?_⟩
    obtain ⟨hp, hread, hexec⟩ | ⟨hp, hread, rfl⟩ | ⟨hp, rfl⟩ | ⟨hp, hfam, rfl⟩ | ⟨hi, hv, hc, rfl⟩ := runPhase_next.mp hrun
    · exact .inl ⟨hp, hread, exec_withRst (i := .read) r hexec⟩
    · exact .inr (.inl ⟨hp, hread, rfl⟩)
    · exact .inr (.inr (.inl ⟨hp, (validate_withRst r s).symm⟩))
    · exact .inr (.inr (.inr (.inl ⟨hp, hfam, rfl⟩)))
    · exact .inr (.inr (.inr (.inr ⟨hi, hv, hc, rfl⟩)))

/-- A step in a world without resets shows what the operation or the computation does in the world as it is. -/
theorem runs_of_step_withRst_nil {s t : State} (h : step (s.withRst []) = .next t) : Runs s { t with env := s.env } := by
  obtain ⟨hreset, -⟩ | ⟨-, hrun⟩ := step_reset_cases h
  · exact absurd nofun hreset
  · have henv : t.env = (s.withRst []).env := (step_next_world h).2.1
    have hrun' : Runs s (t.withRst s.env.rst) := hrun.withRst s.env.rst
    rwa [State.withRst, henv] at hrun'

theorem Runs.step_eq {s t : State} (h : Runs s t) (hrst : s.env.rstAt s.now = false) : step s = .next (s.orReset t) :=
  step_next.mpr (.inr ⟨hrst, t, rfl, h⟩)

end Sys2Proof.Safety

namespace Sys2Proof.Proofs

open Sys2Proof.Machine Sys2Proof.Safety Sys2Proof.Claims

/-- Settles O35: the operation does the same with and without resets, and `orReset` then cuts it short at the first of them. -/
theorem resetAbandonsTheOperation : Obligations.ResetAbandonsTheOperation := by
  intro s t h
  have hrun : Runs s { t with env := s.env } := runs_of_step_withRst_nil h
  refine ⟨fun r hmem hafter hwithin hfirst => ?_, fun hmem => ?_, fun hreset => ?_⟩
  · have hrst : s.env.rstAt s.now = false :=
      eq_false_of_ne_true fun hnow => hafter.not_ge (hfirst _ (rstAt_iff.mp hnow) le_rfl)
    have hcut : s.orReset { t with env := s.env } = s.resetAt r := orReset_of_first hmem hafter hwithin hfirst
    exact ⟨s.resetAt r, hcut ▸ hrun.step_eq hrst, rfl, resetValues_resetAt s r⟩
  · exact ⟨s.heldInReset, step_next.mpr (.inl ⟨rstAt_iff.mpr hmem, rfl⟩), rfl, resetValues_resetAt s _⟩
  · have hrst : s.env.rstAt s.now = false := hreset.rstAt_now (step_next_world h).2.2
    have hwhole : s.orReset { t with env := s.env } = { t with env := s.env } := hreset.orReset le_rfl
    rw [hrun.step_eq hrst, hwhole]

/-- Settles O48: the acknowledgement low lasts 0 ticks, the `k` ticks of waiting are taken for its high, and the low phase of
cell 0 times out. -/
theorem lateSensorEndsInTimeout : Obligations.LateSensorEndsInTimeout := by
  intro s k _ hpos hk hhigh hlow hreset
  have hpulse : NoReset s s.now (listenTick s.cfg s.now) := hreset.within rfl le_rfl (by omega)
  have hnoLow : HoldsFor (freeLine s.env) .low (listenTick s.cfg s.now) 0 :=
    ⟨nofun, by rw [hhigh.1 0 hpos]; nofun⟩
  have hstep := Measures.ackLow.step_of_holdsFor (s := s.listening) rfl rfl rfl (Nat.zero_le _) hnoLow
    (hpulse.within rfl (le_listenTick _ _) le_rfl)
  have hack := (listensAt_listening s).enter .awaitResponseHigh .low s.cfg.toAckLowUs 0 ⟨false, BitVec.ofNat 32 0⟩ 0#6
    Frame.zero
  have hstep' := Measures.ackHigh.step_of_holdsFor hack.phase hack.op hack.mode hk hhigh
    (hreset.within rfl (le_listenTick _ _) (show listenTick s.cfg s.now + k ≤ _ by omega))
  have hcell := hack.enter .bitLoopLow .high s.cfg.toAckHighUs k ⟨false, BitVec.ofNat 32 k⟩ 0#6 Frame.zero
  obtain ⟨t, hreach, hports, hnow, hbit, -⟩ := hcell.reachesIdle_of_holdsPast .bitLow hlow
    (hreset.within rfl ((le_listenTick _ _).trans (Nat.le_add_right _ _)) le_rfl)
  exact ⟨t, reachesIdle_acceptRead hpulse (reachesIdle_succ rfl hstep (reachesIdle_succ rfl hstep' hreach)), hports, hnow,
    hbit⟩

end Sys2Proof.Proofs
